-- ==== Sys2Proof/Word.lean ====
section
/-! DEFINITION. The word types of the tone engine (R8, R20): bit 0 is the least significant bit,
every value is unsigned unless a rule says otherwise. -/

namespace Sys2Proof

/-- One byte: a score character, a volume operand, a note operand. -/
abbrev Byte := BitVec 8

/-- A 16-bit register or operand: durations, timer values, frequency words, cursor fields (R20, D3). -/
abbrev Half := BitVec 16

/-- A 48-bit host command word (R66). -/
abbrev CommandWord := BitVec 48

end Sys2Proof
end

