-- ==== Sys2Proof/Syntax.lean ====
section
/-! DEFINITION. The instructions: one constructor per row of spec/opcode_table.json.
H-format rows are the host commands (R67) and the illegal command word (R68).
S-format rows are the score bytes (R71); a row whose operand is a run of digits (`O<n>`) or a note
tail carries no operand here, because the spec reads that operand out of the score while the
instruction runs (R120 to R123). -/

namespace Sys2Proof

/-- `MODE` (R12, R21): how a sequence advances. -/
inductive Mode where
  | automatic
  | checkDriven
deriving DecidableEq, Repr

/-- The encoding of `MODE`: Automatic 0, CheckDriven 1 (R12). -/
def Mode.toBit : Mode → BitVec 1
  | .automatic => 0
  | .checkDriven => 1

/-- One instruction. -/
inductive Instr where
  /-- `PLAY_FREQ freq, dur, vol` (R127). -/
  | playFreq (freq dur : Half) (vol : Byte)
  /-- `PLAY_NOTE note, dur, vol` (R128). -/
  | playNote (note : Byte) (dur : Half) (vol : Byte)
  /-- `PLAY_SEQ base, len` (R129). -/
  | playSeq (base len : Half)
  /-- `PLAY_MODE m` (R130). -/
  | playMode (mode : Mode)
  /-- `PLAY_CHECK` (R131). -/
  | playCheck
  /-- `IS_PLAYING` (R132). -/
  | isPlaying
  /-- `STOP` (R133). -/
  | stop
  /-- `ILLEGAL_CMD`: a word that spells no command (R68, R137). -/
  | illegalCmd (word : CommandWord)
  /-- `>` (R103). -/
  | octaveUp
  /-- `<` (R104). -/
  | octaveDown
  /-- `A` (R105). -/
  | noteA
  /-- `B` (R106). -/
  | noteB
  /-- `C` (R107). -/
  | noteC
  /-- `D` (R108). -/
  | noteD
  /-- `E` (R109). -/
  | noteE
  /-- `F` (R110). -/
  | noteF
  /-- `G` (R111). -/
  | noteG
  /-- `R` (R112). -/
  | rest
  /-- `O<n>` (R113). -/
  | setOctave
  /-- `T<n>` (R114). -/
  | setTempo
  /-- `L<n>` (R115). -/
  | setLength
  /-- `V<n>` (R116). -/
  | setVolume
  /-- `ML` (R117). -/
  | legato
  /-- `MS`, and `M` followed by any byte other than `L` (R117); `second` is that byte. -/
  | staccato (second : Byte)
  /-- `!` (R118). -/
  | resetMusic
  /-- `+` (R121). -/
  | sharpPlus
  /-- `#` (R121). -/
  | sharpHash
  /-- `-` (R121). -/
  | flat
  /-- A digit '0' to '7' (R120). -/
  | digitLow (value : BitVec 3)
  /-- A digit '8' or '9' (R120); `value` counts from 8. -/
  | digitHigh (value : BitVec 1)
  /-- `.` (R123). -/
  | dot
  /-- The space 0x20 (R53). -/
  | space
  /-- Any other byte, and the end of the score (R119). -/
  | terminator (byte : Byte)
deriving DecidableEq, Repr

/-- The words an instruction is written in (R65): one 48-bit command word, or score bytes. -/
inductive Words where
  | command (word : CommandWord)
  | score (bytes : List Byte)
deriving DecidableEq, Repr

end Sys2Proof
end

