-- ==== Sys2Proof/WellFormed.lean ====
section
/-! DEFINITION. Which instructions have an encoding. Only three constructors carry an operand that
some value of its type does not fit: an illegal word must be illegal (R68), the byte after `M` must
not make it `ML` or be a skipped space (R117, R53), and a terminator must be a byte no other row takes
(R71). -/

namespace Sys2Proof

/-- A word that spells a command: opcode 1 to 7 with its reserved field bits zero (R67, R68). -/
def legalCommand (w : CommandWord) : Bool :=
  match (w.extractLsb' 40 8).toNat with
  | 1 => true
  | 2 => w.extractLsb' 32 8 == 0
  | 3 => w.extractLsb' 0 8 == 0
  | 4 => w.extractLsb' 1 39 == 0
  | 5 => w.extractLsb' 0 40 == 0
  | 6 => w.extractLsb' 0 40 == 0
  | 7 => w.extractLsb' 0 40 == 0
  | _ => false

/-- The bytes that some S-format row other than `TERMINATOR` accepts, in either case (R71). -/
def scoreLetters : List Byte :=
  [0x20, 0x21, 0x23, 0x2B, 0x2D, 0x2E,
   0x30, 0x31, 0x32, 0x33, 0x34, 0x35, 0x36, 0x37, 0x38, 0x39, 0x3C, 0x3E] ++
  [0x41, 0x42, 0x43, 0x44, 0x45, 0x46, 0x47, 0x4C, 0x4D, 0x4F, 0x52, 0x54, 0x56] ++
  [0x61, 0x62, 0x63, 0x64, 0x65, 0x66, 0x67, 0x6C, 0x6D, 0x6F, 0x72, 0x74, 0x76]

/-- The instruction is one that some words spell. -/
def Instr.wf : Instr → Bool
  | .playFreq _ _ _ | .playNote _ _ _ | .playSeq _ _ | .playMode _ => true
  | .playCheck | .isPlaying | .stop => true
  | .illegalCmd w => !legalCommand w
  | .octaveUp | .octaveDown => true
  | .noteA | .noteB | .noteC | .noteD | .noteE | .noteF | .noteG | .rest => true
  | .setOctave | .setTempo | .setLength | .setVolume => true
  | .legato => true
  | .staccato second => second != 0x4C && second != 0x6C && second != 0x20
  | .resetMusic => true
  | .sharpPlus | .sharpHash | .flat => true
  | .digitLow _ | .digitHigh _ => true
  | .dot | .space => true
  | .terminator b => !scoreLetters.contains b

end Sys2Proof
end

