-- ==== Sys2Proof/Decode.lean ====
section
/-! DEFINITION. The decoder and, after it, the encoder. Decoding is total: a command word that spells
no command decodes to `Instr.illegalCmd` (R68) and a byte that no score row accepts decodes to
`Instr.terminator` (R71), the two rows by which the table itself rejects. -/

namespace Sys2Proof

/-- `Fetch`'s case folding: 'A'..'Z' to 'a'..'z', every other byte unchanged (R53). -/
def foldCase (c : Byte) : Byte :=
  if 0x41 ≤ c.toNat ∧ c.toNat ≤ 0x5A then c + 0x20 else c

/-- The `MODE` value of a one-bit field (R12). -/
def modeOfBit (b : Bool) : Mode :=
  if b then .checkDriven else .automatic

/-- Field `OP` of a command word (R66). -/
def opField (w : CommandWord) : Byte := w.extractLsb' 40 8

/-- Field `A` of a command word (R66). -/
def aField (w : CommandWord) : Half := w.extractLsb' 24 16

/-- Field `B` of a command word (R66). -/
def bField (w : CommandWord) : Half := w.extractLsb' 8 16

/-- Field `C` of a command word (R66). -/
def cField (w : CommandWord) : Byte := w.extractLsb' 0 8

/-- The H-format decoder (R67, R68). -/
def decodeCommand (w : CommandWord) : Instr :=
  match (opField w).toNat with
  | 1 => .playFreq (aField w) (bField w) (cField w)
  | 2 => if (aField w).extractLsb' 8 8 = 0 then
           .playNote ((aField w).extractLsb' 0 8) (bField w) (cField w)
         else .illegalCmd w
  | 3 => if cField w = 0 then .playSeq (aField w) (bField w) else .illegalCmd w
  | 4 => if aField w = 0 ∧ bField w = 0 ∧ (cField w).extractLsb' 1 7 = 0 then
           .playMode (modeOfBit ((cField w).getLsbD 0))
         else .illegalCmd w
  | 5 => if aField w = 0 ∧ bField w = 0 ∧ cField w = 0 then .playCheck else .illegalCmd w
  | 6 => if aField w = 0 ∧ bField w = 0 ∧ cField w = 0 then .isPlaying else .illegalCmd w
  | 7 => if aField w = 0 ∧ bField w = 0 ∧ cField w = 0 then .stop else .illegalCmd w
  | _ => .illegalCmd w

/-- The S-format decoder for the score byte `c` (R71). `second` is the character `Fetch` would give
after it, before folding; only `M` looks at it (R117). -/
def decodeToken (c second : Byte) : Instr :=
  match (foldCase c).toNat with
  | 0x20 => .space
  | 0x21 => .resetMusic
  | 0x23 => .sharpHash
  | 0x2B => .sharpPlus
  | 0x2D => .flat
  | 0x2E => .dot
  | 0x30 => .digitLow 0
  | 0x31 => .digitLow 1
  | 0x32 => .digitLow 2
  | 0x33 => .digitLow 3
  | 0x34 => .digitLow 4
  | 0x35 => .digitLow 5
  | 0x36 => .digitLow 6
  | 0x37 => .digitLow 7
  | 0x38 => .digitHigh 0
  | 0x39 => .digitHigh 1
  | 0x3C => .octaveDown
  | 0x3E => .octaveUp
  | 0x61 => .noteA
  | 0x62 => .noteB
  | 0x63 => .noteC
  | 0x64 => .noteD
  | 0x65 => .noteE
  | 0x66 => .noteF
  | 0x67 => .noteG
  | 0x6C => .setLength
  | 0x6D => if foldCase second = 0x6C then .legato else .staccato second
  | 0x6F => .setOctave
  | 0x72 => .rest
  | 0x74 => .setTempo
  | 0x76 => .setVolume
  | _ => .terminator c

/-- The first byte of a list that is not a space; 0x00, the end sentinel, if there is none (R52, R53). -/
def firstNonSpace : List Byte → Byte
  | [] => 0x00
  | c :: cs => if c = 0x20 then firstNonSpace cs else c

/-- The instruction at the start of a score (R71); the end of the score is a terminator (R119). -/
def decodeScore : List Byte → Instr
  | [] => .terminator 0x00
  | c :: cs => decodeToken c (firstNonSpace cs)

/-- The decoder of either format (R65). -/
def decode : Words → Instr
  | .command w => decodeCommand w
  | .score bytes => decodeScore bytes

/-- A command word from its four fields (R66). -/
def commandWord (op : Byte) (a b : Half) (c : Byte) : CommandWord :=
  (op ++ a ++ b ++ c : BitVec (8 + 16 + 16 + 8))

/-- The encoder: the words of a well-formed instruction (R67, R71). Letters are written in upper case. -/
def encode : Instr → Words
  | .playFreq freq dur vol => .command (commandWord 0x01 freq dur vol)
  | .playNote note dur vol => .command (commandWord 0x02 (note.setWidth 16) dur vol)
  | .playSeq base len => .command (commandWord 0x03 base len 0)
  | .playMode mode => .command (commandWord 0x04 0 0 (mode.toBit.setWidth 8))
  | .playCheck => .command (commandWord 0x05 0 0 0)
  | .isPlaying => .command (commandWord 0x06 0 0 0)
  | .stop => .command (commandWord 0x07 0 0 0)
  | .illegalCmd w => .command w
  | .octaveUp => .score [0x3E]
  | .octaveDown => .score [0x3C]
  | .noteA => .score [0x41]
  | .noteB => .score [0x42]
  | .noteC => .score [0x43]
  | .noteD => .score [0x44]
  | .noteE => .score [0x45]
  | .noteF => .score [0x46]
  | .noteG => .score [0x47]
  | .rest => .score [0x52]
  | .setOctave => .score [0x4F]
  | .setTempo => .score [0x54]
  | .setLength => .score [0x4C]
  | .setVolume => .score [0x56]
  | .legato => .score [0x4D, 0x4C]
  | .staccato second => .score [0x4D, second]
  | .resetMusic => .score [0x21]
  | .sharpPlus => .score [0x2B]
  | .sharpHash => .score [0x23]
  | .flat => .score [0x2D]
  | .digitLow value => .score [0x30 + value.setWidth 8]
  | .digitHigh value => .score [0x38 + value.setWidth 8]
  | .dot => .score [0x2E]
  | .space => .score [0x20]
  | .terminator byte => .score [byte]

/-- The score bytes of a table word of `nbits` bits. The table writes the first byte of a two-byte
row in the HIGH byte (`ML` is 0x4D4C, 'M' then 'L'): DEDUCED, log entry 9. -/
def scoreBytesOf (nbits w : Nat) : List Byte :=
  if nbits = 16 then [BitVec.ofNat 8 (w / 256), BitVec.ofNat 8 w] else [BitVec.ofNat 8 w]

/-- The words of a table word: 48 bits are a command word, 8 or 16 bits are score bytes (R65). -/
def tableWords (nbits w : Nat) : Option Words :=
  if nbits = 48 then some (.command (BitVec.ofNat 48 w))
  else if nbits = 8 ∨ nbits = 16 then some (.score (scoreBytesOf nbits w))
  else none

/-- The instruction the decoder reads from a word of spec/opcode_table.json; none for a number of bits
that is the width of no row. -/
def decodeTableWord (nbits w : Nat) : Option Instr :=
  (tableWords nbits w).map decode

end Sys2Proof
end

