-- ==== Sys2Proof/Config.lean ====
section
/-! DEFINITION. The three named parameters of the engine (R6) with their legal ranges (R7, R87).
A machine carries its parameters in `State.cfg`, which no step changes, so a statement about every
state is a statement about every legal choice of the parameters. -/

namespace Sys2Proof

/-- `P_TONE_CLK_HZ`, the count rate of the high-rate source, in the range R7 makes legal.
A value outside the range spells no engine and cannot be written (U10). -/
abbrev ClockHz := { n : Nat // 1000 ≤ n ∧ n ≤ 13113653 }

/-- One entry of `P_NOTE_TABLE`: a frequency in tenths of a Hz, legal from 1 to 1023 (R87). -/
abbrev Tenths := { n : Nat // 1 ≤ n ∧ n ≤ 1023 }

/-- The parameters of one engine (R6). -/
structure Config where
  /-- `P_TONE_CLK_HZ`. -/
  toneClkHz : ClockHz
  /-- `P_NOTE_TABLE`, indexed 0..11 from note index `LOW` = 16. -/
  noteTable : Vector Tenths 12
  /-- `P_DUR_FIRST_DIGITS`: the characters that may begin a per-note duration. -/
  durFirstDigits : List Byte
deriving DecidableEq, Repr

/-- The default `P_NOTE_TABLE`: E1 to D#2 in equal temperament, A4 = 440 Hz (R6, R87). -/
def defaultNoteTable : Vector Tenths 12 :=
  #v[⟨412, by decide⟩, ⟨437, by decide⟩, ⟨462, by decide⟩, ⟨490, by decide⟩,
     ⟨519, by decide⟩, ⟨550, by decide⟩, ⟨583, by decide⟩, ⟨617, by decide⟩,
     ⟨654, by decide⟩, ⟨693, by decide⟩, ⟨734, by decide⟩, ⟨778, by decide⟩]

/-- The default `P_DUR_FIRST_DIGITS`: '0' to '9' (R6). -/
def defaultDurFirstDigits : List Byte :=
  [0x30, 0x31, 0x32, 0x33, 0x34, 0x35, 0x36, 0x37, 0x38, 0x39]

/-- The reference parameters of the spec's test vectors: 8 000 000 counts per second and the
default tables (R6). DESIGN CHOICE as the parameters of `State.reset` (log entry 1). -/
def Config.reference : Config where
  toneClkHz := ⟨8000000, by decide⟩
  noteTable := defaultNoteTable
  durFirstDigits := defaultDurFirstDigits

end Sys2Proof
end

