-- ==== Sys2Proof/Machine/State.lean ====
section
/-! DEFINITION. The machine's state as plain data: the 22 registers and the output trace of R20 and
R37 (`Engine`), the parameters (R6), the sequence memory (R50), and two fields of the model's own: the
agent steps still to come (`inputs`) and a pull in progress (`pull`). -/

namespace Sys2Proof.Machine

open Sys2Proof

/-- `TONE_PRESCALE` (R12, R31): the clock source of the tone timer. -/
inductive Prescale where
  | div1
  | div8
deriving DecidableEq, Repr

/-- The encoding of `TONE_PRESCALE`: Div1 0, Div8 1 (R12). -/
def Prescale.toBit : Prescale → BitVec 1
  | .div1 => 0
  | .div8 => 1

/-- The planner's output, the source's ToneParameters (R85). -/
structure ToneParams where
  /-- The clamped frequency word (R89). -/
  freq : Half
  /-- The clock source (R90). -/
  prescale : Prescale
  /-- The timer top value (R91). -/
  top : Half
  /-- The duty value (R94). -/
  duty : Half
  /-- The timeout in ticks (R93). -/
  timeout : Half
deriving DecidableEq, Repr

/-- An event of the output trace (R37). -/
inductive Event where
  /-- A tone was programmed by `ToneStart` (R95). -/
  | tone (params : ToneParams)
  /-- The output was set to the baseline by `Silence` (R96). -/
  | silent
  /-- The sequencer met the end of the score (R119). -/
  | endOfSequence
  /-- The answer of `PLAY_CHECK` or `IS_PLAYING` (R131, R132). -/
  | resp (answer : Bool)
deriving DecidableEq, Repr

/-- The fault codes of R139. -/
inductive FaultCode where
  | ovfNum
  | div0
  | ovfDur
  | ovfTimeout
  | illegalCmd
deriving DecidableEq, Repr

/-- The registers of R20, in its order, and the output trace of R37.
`entry` of a pull in progress is a value of this type, so that a fault can roll a step back (R138). -/
structure Engine where
  /-- `MODE` (R21). -/
  mode : Mode
  /-- `FINISHED` (R22). -/
  finished : Bool
  /-- `RESP` (R23). -/
  resp : Bool
  /-- `SEQ_ACTIVE` (R25). -/
  seqActive : Bool
  /-- `SEQ_BASE` (R26). -/
  seqBase : Half
  /-- `SEQ_LEN` (R26). -/
  seqLen : Half
  /-- `SEQ_OFF` (R27), the engine's one sequential position (R39). -/
  seqOff : Half
  /-- `STACC_REST` (R28); 0 is "absent". -/
  staccRest : Half
  /-- `OCTAVE` (R29). -/
  octave : Half
  /-- `NOTE_TYPE` (R30). -/
  noteType : Half
  /-- `WHOLE_MS` (R30). -/
  wholeMs : Half
  /-- `DURATION` (R30). -/
  duration : Half
  /-- `VOLUME` (R34). -/
  volume : BitVec 4
  /-- `STACCATO` (R35). -/
  staccato : Bool
  /-- `TONE_FREQ` (R31). -/
  toneFreq : Half
  /-- `TONE_PRESCALE` (R31). -/
  tonePrescale : Prescale
  /-- `TONE_TOP` (R31). -/
  toneTop : Half
  /-- `TONE_DUTY` (R31). -/
  toneDuty : Half
  /-- `TIMEOUT` (R32). -/
  timeout : Half
  /-- `TICK_IE` (R33). -/
  tickIE : Bool
  /-- `FAULT` (R36), one sticky bit per code. -/
  fault : BitVec 5
  /-- `FAULT_CAUSE` (R36), the code of the first fault. -/
  faultCause : BitVec 3
  /-- The output trace (R37), oldest event first. -/
  trace : List Event
deriving DecidableEq, Repr

/-- Every register at its reset value (R20, R43), the trace empty (R155). -/
def Engine.reset (cfg : Config) : Engine where
  mode := .automatic
  finished := true
  resp := false
  seqActive := false
  seqBase := 0
  seqLen := 0
  seqOff := 0
  staccRest := 0
  octave := 4
  noteType := 4
  wholeMs := 2000
  duration := 500
  volume := 15
  staccato := false
  toneFreq := 1000
  tonePrescale := .div1
  toneTop := BitVec.ofNat 16 ((cfg.toneClkHz.val + 500) / 1000)
  toneDuty := 0
  timeout := 0
  tickIE := false
  fault := 0
  faultCause := 0
  trace := []

/-- What a note letter or a rest letter asks for: a note index, an integer that issue clamps
(R100, R125), or silence (R99, R112). -/
inductive Pitch where
  | silent
  | note (index : Int)
deriving DecidableEq, Repr

/-- Which settings token a number belongs to (R113 to R116). -/
inductive Setting where
  | octave
  | tempo
  | length
  | volume
deriving DecidableEq, Repr

/-- Where in the pseudocode of a pull the sequencer stands (R100, R120 to R123). Every agent step runs
its pull to the end; the places inside a token exist so that a single score byte has a meaning of its
own (log entry 4). -/
inductive Place where
  /-- At the head of the token loop (R100). -/
  | tokens
  /-- In `Number()` for a settings token, with the value read so far (R120). -/
  | number (setting : Setting) (value : Nat)
  /-- In the first loop of the accidentals (R121). -/
  | sharps (pitch : Pitch)
  /-- In the second loop of the accidentals (R121). -/
  | flats (pitch : Pitch)
  /-- In `Number()` for a per-note duration (R122). -/
  | denominator (pitch : Pitch) (value : Nat)
  /-- In the loop of the dots, with the duration and the next dot's bonus (R123). -/
  | dots (pitch : Pitch) (dur bonus : Nat)
deriving DecidableEq, Repr

/-- The temporaries of one pull (R42, R102) and the registers before the agent step that pulls, to
which a fault rolls back (R138). -/
structure PullState where
  /-- The registers and trace before the agent step. -/
  entry : Engine
  /-- `tmpOct` (R102). -/
  tmpOct : Int
  /-- The place in the pseudocode. -/
  place : Place
deriving DecidableEq, Repr

/-- The sequence memory (R50) as its non-zero bytes, addresses strictly rising; an address that is not
listed reads 0x00 (DESIGN CHOICE, log entry 2). -/
abbrev Memory := List Host.Cell

/-- One step of the world outside the engine (R5). -/
inductive Input where
  /-- The HOST agent issues a command word (R126). -/
  | command (word : CommandWord)
  /-- The tone timer overflows: the TICK agent's step, lost while `TICK_IE` = 0 (R41, R141). -/
  | tick
  /-- The host places one byte of a score in the sequence memory (R63, R156). -/
  | load (addr : Half) (byte : Byte)
  /-- Reset is asserted (R155). -/
  | reset
deriving DecidableEq, Repr

/-- The machine. -/
structure State where
  /-- The parameters (R6); no step writes them. -/
  cfg : Config
  /-- The registers and the output trace (R20, R37). -/
  eng : Engine
  /-- The sequence memory (R50), the host's input. -/
  mem : Memory
  /-- The model's own: the steps the outside world takes, in order (log entry 3). -/
  inputs : List Input
  /-- The model's own: a pull in progress; none before and after every agent step (log entry 4). -/
  pull : Option PullState
deriving DecidableEq, Repr

/-- Why a run stops with a fault of the MODEL. The spec's own faults (R139) are not among them: they
are next states with `FAULT` set. -/
inductive Fault where
  /-- Raised by `pullLoop` when its bound on the number of score tokens runs out before the pull ends.
  No state makes a step raise it, since every token consumes a byte; safe. -/
  | pullBound
  /-- Raised by `execToken` when a host command stands where a score token must. The score decoder
  never yields one; safe. -/
  | commandInScore
deriving DecidableEq, Repr

/-- Why the model refuses to go on. -/
inductive Refusal where
  /-- An instruction whose meaning the model lacks; raised by `exec` only, and by none of its arms; safe. -/
  | notModelled (mnemonic : String)
  /-- The host writes the sequence memory while `SEQ_ACTIVE` = 1: a move R63 and R160 do not give the
  host, refused as U9 says; raised by `takeInput`; safe. -/
  | scoreWriteDuringPlayback
deriving DecidableEq, Repr

/-- What a step or an instruction answers. -/
abbrev Answer := Host.Outcome State Fault Refusal

/-- The machine right after reset with parameters `cfg`: registers as R43 says, nothing placed in the
sequence memory, nothing yet to come from outside. -/
def State.resetWith (cfg : Config) : State where
  cfg := cfg
  eng := Engine.reset cfg
  mem := []
  inputs := []
  pull := none

/-- The machine right after reset (R155) with the reference parameters (log entry 1). -/
def State.reset : State := State.resetWith Config.reference

end Sys2Proof.Machine
end

