-- ==== Sys2Proof/Machine/Ops.lean ====
section
/-! DEFINITION. The named operations over the sequence memory, the score cursor and the registers:
`MemRead`, `Fetch` and `Advance` (R51 to R54), `ToneStart` and `Silence` (R95, R96), `Emit` (R37), and
raising a fault (R11, R138), the engine's only exception, with reset, the only way out of it (R155). -/

namespace Sys2Proof.Machine

open Sys2Proof

/-! ## Sequence memory -/

/-- What an address that is not listed reads as (log entry 2). -/
def unlistedByte : Byte := 0x00

/-- `MemRead(addr, 1)` (R51). -/
def Memory.read (m : Memory) (addr : Nat) : Byte :=
  match m with
  | [] => unlistedByte
  | (a, b) :: rest => if a = addr then b else Memory.read rest addr

/-- The memory with one byte placed, in canonical form again. -/
def Memory.write (m : Memory) (addr : Nat) (byte : Byte) : Memory :=
  match m with
  | [] => if byte = unlistedByte then [] else [(addr, byte)]
  | (a, b) :: rest =>
    if addr < a then
      if byte = unlistedByte then (a, b) :: rest else (addr, byte) :: (a, b) :: rest
    else if addr = a then
      if byte = unlistedByte then rest else (addr, byte) :: rest
    else (a, b) :: Memory.write rest addr byte

/-- The first listed address, if any, is above `addr`. -/
def Memory.above (m : Memory) (addr : Nat) : Bool :=
  match m with
  | [] => true
  | (a, _) :: _ => decide (addr < a)

/-- The canonical form: addresses of the 64 KiB space (R50), strictly rising, and no byte listed that
reads as an unlisted one does. -/
def Memory.wf (m : Memory) : Bool :=
  match m with
  | [] => true
  | (a, b) :: rest =>
    decide (a < 65536) && decide (b ≠ unlistedByte) && Memory.above rest a && Memory.wf rest

/-! ## Updates of the state -/

/-- The state with its registers rewritten. -/
def State.mapEng (s : State) (f : Engine → Engine) : State := { s with eng := f s.eng }

/-- The state with the pull in progress, if there is one, rewritten. -/
def State.mapPull (s : State) (f : PullState → PullState) : State :=
  { s with pull := s.pull.map f }

/-- The pull at another place of the pseudocode. -/
def State.atPlace (s : State) (p : Place) : State :=
  s.mapPull fun c => { c with place := p }

/-- The pull with another temporary octave (R102). -/
def State.withTmpOct (s : State) (oct : Int) : State :=
  s.mapPull fun c => { c with tmpOct := oct }

/-- The pull is over. -/
def State.closePull (s : State) : State := { s with pull := none }

/-- A pull begins at the token loop with `tmpOct <- OCTAVE` (R100, R102); `origin` is what a fault in it
rolls back to (R138). -/
def State.openPull (s : State) (origin : Engine) : State :=
  { s with pull := some { entry := origin, tmpOct := s.eng.octave.toNat, place := .tokens } }

/-- The pull a score token runs in: the one in progress, else one that begins with this token. -/
def State.currentPull (s : State) : PullState :=
  s.pull.getD { entry := s.eng, tmpOct := s.eng.octave.toNat, place := .tokens }

/-- The state with the current pull in progress. -/
def State.opened (s : State) : State := { s with pull := some s.currentPull }

/-- `tmpOct` (R102). -/
def State.tmpOct (s : State) : Int := s.currentPull.tmpOct

/-! ## The score cursor -/

/-- `Byte(o)` (R52): the score byte at offset `o`, the sentinel 0x00 at or past the length. -/
def State.byteAt (s : State) (o : Half) : Byte :=
  if s.eng.seqLen.toNat ≤ o.toNat then 0x00 else s.mem.read (s.eng.seqBase + o).toNat

/-- The score byte at the cursor, not folded. -/
def State.scoreByte (s : State) : Byte := s.byteAt s.eng.seqOff

/-- `Advance()` (R54). -/
def State.advance (s : State) : State :=
  s.mapEng fun e =>
    { e with seqOff := BitVec.ofNat 16 (min (e.seqOff.toNat + 1) e.seqLen.toNat) }

/-- How many score bytes the cursor has before it: the bound of every loop over the score (R53). -/
def State.remaining (s : State) : Nat := s.eng.seqLen.toNat - s.eng.seqOff.toNat

/-- The loop of `Fetch()` with a bound on its passes (R53). -/
def skipSpacesLoop : Nat → State → State
  | 0, s => s
  | k + 1, s => if s.scoreByte = 0x20 then skipSpacesLoop k s.advance else s

/-- The state `Fetch()` leaves: the cursor past the spaces (R53). -/
def State.skipSpaces (s : State) : State := skipSpacesLoop s.remaining s

/-- The character `Fetch()` returns where no space is left to skip: the byte at the cursor, folded (R53). -/
def State.char (s : State) : Byte := foldCase s.scoreByte

/-- The instruction at the cursor (R71). -/
def State.nextToken (s : State) : Instr :=
  decodeToken s.scoreByte s.advance.skipSpaces.scoreByte

/-! ## Registers -/

/-- `Emit(e)` (R37). -/
def Engine.emit (e : Engine) (ev : Event) : Engine := { e with trace := e.trace ++ [ev] }

/-- `ToneStart(p)` (R95). -/
def Engine.toneStart (e : Engine) (p : ToneParams) : Engine :=
  { e with
    toneFreq := p.freq
    tonePrescale := p.prescale
    toneTop := p.top
    toneDuty := p.duty
    timeout := p.timeout
    finished := false
    tickIE := true
    trace := e.trace ++ [.tone p] }

/-- `TONE_TOP` of the baseline, 1000 Hz on the high-rate source (R96). -/
def baselineTop (cfg : Config) : Half := BitVec.ofNat 16 ((cfg.toneClkHz.val + 500) / 1000)

/-- `Silence()` (R96). -/
def Engine.silence (e : Engine) (cfg : Config) : Engine :=
  { e with
    tickIE := false
    toneFreq := 1000
    tonePrescale := .div1
    toneTop := baselineTop cfg
    toneDuty := 0
    trace := e.trace ++ [.silent] }

/-- What ends a session: the cursor emptied and the pending rest cleared (R127, R128, R133). -/
def Engine.endSession (e : Engine) : Engine := { e with seqActive := false, staccRest := 0 }

/-- `RESP` written and its event appended (R131, R132). -/
def Engine.respond (e : Engine) (answer : Bool) : Engine :=
  { e with resp := answer, trace := e.trace ++ [.resp answer] }

/-- The registers at the end of the sequence (R119). -/
def Engine.endSequence (e : Engine) (cfg : Config) : Engine :=
  ({ ({ e with seqActive := false } : Engine).silence cfg with finished := true } : Engine).emit
    .endOfSequence

/-! ## Faults -/

/-- `FAULT_CAUSE` of a fault code (R139). -/
def FaultCode.cause : FaultCode → BitVec 3
  | .ovfNum => 1
  | .div0 => 2
  | .ovfDur => 3
  | .ovfTimeout => 4
  | .illegalCmd => 5

/-- The `FAULT` bit of a fault code, as a mask (R36, R139). -/
def FaultCode.mask : FaultCode → BitVec 5
  | .ovfNum => 0b00001
  | .div0 => 0b00010
  | .ovfDur => 0b00100
  | .ovfTimeout => 0b01000
  | .illegalCmd => 0b10000

/-- The fault registers after a fault: its sticky bit, and its code if it is the first (R11, R138). -/
def Engine.recordFault (e : Engine) (code : FaultCode) : Engine :=
  { e with
    fault := e.fault ||| code.mask
    faultCause := if e.faultCause = 0 then code.cause else e.faultCause }

/-- The engine is halted while `FAULT` is not 0 (R138). -/
def State.halted (s : State) : Bool := s.eng.fault != 0

/-- The registers before the agent step in which `s` stands (R138). -/
def State.origin (s : State) : Engine :=
  match s.pull with
  | some c => c.entry
  | none => s.eng

/-- `raise Fault(code)` (R11, R138): the step is rolled back, the fault recorded, the step over. -/
def State.raise (s : State) (code : FaultCode) : State :=
  { s with eng := s.origin.recordFault code, pull := none }

/-- Reset (R155), the one return from a fault: every register at its reset value, the trace emptied.
The parameters and the sequence memory are the host's and stay (R42). -/
def State.restart (s : State) : State := { s with eng := Engine.reset s.cfg, pull := none }

/-- The answer of a step that began in `s` and computed `r`: its result, or the fault raised in `s`. -/
def State.settle (s : State) (r : Except FaultCode State) : Answer :=
  match r with
  | .ok t => .next t
  | .error code => .next (s.raise code)

/-- A step of an engine that is not halted; a halted engine changes nothing (R138). -/
def State.unlessHalted (s : State) (r : Answer) : Answer :=
  if s.halted then .next s else r

end Sys2Proof.Machine
end

