-- ==== Sys2Proof/Machine/Flags.lean ====
section
/-! DEFINITION. Derived status. The engine has no arithmetic condition codes (R40); what software could
call a status is computed from the flags `FINISHED` and `SEQ_ACTIVE`. -/

namespace Sys2Proof.Machine

/-- The session status (R24). -/
inductive Status where
  | idle
  | playingNote
  | playingSequence
deriving DecidableEq, Repr

/-- The session status of a state of the registers (R24). -/
def Engine.status (e : Engine) : Status :=
  if e.seqActive then .playingSequence
  else if e.finished then .idle
  else .playingNote

/-- `isPlaying` (R44). -/
def Engine.playing (e : Engine) : Bool := !e.finished || e.seqActive

/-- A note has finished and the sequence has more to play: the condition under which `PLAY_CHECK` and
`PLAY_MODE AUTO` pull (R130, R131). -/
def Engine.pullDue (e : Engine) : Bool := e.finished && e.seqActive

/-- A staccato rest is pending at the start of a pull (R101). -/
def Engine.restPending (e : Engine) : Bool := e.staccato && e.staccRest != 0

end Sys2Proof.Machine
end

