-- ==== Sys2Proof/Machine/Planner.lean ====
section
/-! DEFINITION. FrequencyPlanner (R85 to R94, R98, R99): a note or a frequency word, a duration and a
volume to the tone parameters. Arithmetic is on natural numbers; a value meets a register width only at
the end, after its check (R9). -/

namespace Sys2Proof.Machine

open Sys2Proof

/-- `mult` (R88): 10 for a word in tenths of a Hz, else 1. -/
def freqMult (fw : Half) : Nat := if fw.getLsbD 15 then 10 else 1

/-- `f` (R88): the frequency in the word's own unit. -/
def freqValue (fw : Half) : Nat :=
  if fw.getLsbD 15 then (fw.extractLsb' 0 15).toNat else fw.toNat

/-- The lower and the upper clamp (R89). -/
def clampFreq (mult f : Nat) : Nat :=
  let low := if f < 40 * mult then 40 * mult else f
  if mult = 1 ∧ 10000 < low then 10000 else low

/-- The clamped frequency as a word again (R89). -/
def freqWord (mult f : Nat) : Half :=
  if mult = 10 then 0x8000 ||| BitVec.ofNat 16 f else BitVec.ofNat 16 f

/-- Clock-source selection (R90). -/
def selectPrescale (mult f : Nat) : Prescale := if 200 * mult < f then .div1 else .div8

/-- The count rate of a clock source (R6, R90). -/
def clockRate (cfg : Config) (pre : Prescale) : Nat :=
  match pre with
  | .div1 => cfg.toneClkHz.val
  | .div8 => cfg.toneClkHz.val / 8

/-- The timer top value, rounded to nearest (R91). -/
def timerTop (rate mult f : Nat) : Nat := (rate * mult + f / 2) / f

/-- The frequency in whole Hz (R92). -/
def wholeHz (mult f : Nat) : Nat := if mult = 10 then (f + 5) / 10 else f

/-- The timeout in ticks (R93). -/
def timeoutTicks (fHz d : Nat) : Except FaultCode Nat :=
  if fHz = 1000 then .ok d
  else if 65535 < d * fHz / 1000 then .error .ovfTimeout
  else .ok (d * fHz / 1000)

/-- The duty value (R94). -/
def dutyValue (top v : Nat) : Nat := top >>> (16 - min v 15)

/-- `Plan(fw, d, v)` (R85). -/
def plan (cfg : Config) (fw d : Half) (v : Byte) : Except FaultCode ToneParams :=
  let mult := freqMult fw
  let f := clampFreq mult (freqValue fw)
  let pre := selectPrescale mult f
  let top := timerTop (clockRate cfg pre) mult f
  match timeoutTicks (wholeHz mult f) d.toNat with
  | .error code => .error code
  | .ok t =>
    .ok { freq := freqWord mult f
          prescale := pre
          top := BitVec.ofNat 16 top
          duty := BitVec.ofNat 16 (dutyValue top v.toNat)
          timeout := BitVec.ofNat 16 t }

/-- The lowest playable note index, E1 (R86). -/
def lowNote : Nat := 16

/-- The highest playable note index, D#9 (R86). -/
def highNote : Nat := 111

/-- `clamp(n, LOW, HIGH)` (R86, R99). -/
def clampNote (n : Int) : Nat := (max (lowNote : Int) (min n highNote)).toNat

/-- `P_NOTE_TABLE[k]` for `k` taken modulo 12 (R87). -/
def tableEntry (cfg : Config) (k : Nat) : Nat :=
  (cfg.noteTable[k % 12]'(Nat.mod_lt k (by decide))).val

/-- `NoteFreq(n)` (R98). -/
def noteFreq (cfg : Config) (n : Nat) : Half :=
  let off := n - lowNote
  let oct := off / 12
  let b := tableEntry cfg off
  if oct < 7 then
    let x := b <<< oct
    if 2 ≤ oct then BitVec.ofNat 16 ((x + 5) / 10) else 0x8000 ||| BitVec.ofNat 16 x
  else BitVec.ofNat 16 ((b * 64 + 2) / 5)

/-- The plan of a silent note: 1000 Hz at volume 0 (R99). -/
def planSilent (cfg : Config) (d : Half) : Except FaultCode ToneParams := plan cfg 1000 d 0

/-- `PlanNote(n, d, v)` (R99). `SILENT` is a pitch of its own and no index: an index the sequencer computes
as 255 is clamped like any other above 111, since R86 makes 255 silent as the host's operand only
(DEDUCED, log entry 16). -/
def planNote (cfg : Config) (pitch : Pitch) (d : Half) (v : Byte) : Except FaultCode ToneParams :=
  match pitch with
  | .silent => planSilent cfg d
  | .note n =>
    if v = 0 then planSilent cfg d
    else plan cfg (noteFreq cfg (clampNote n)) d (BitVec.ofNat 8 (min v.toNat 15))

/-- The note operand of `PLAY_NOTE`: 255 is the silent note (R86, R128). Only here does the number 255 mean
silence (DEDUCED, log entry 16). -/
def hostPitch (note : Byte) : Pitch := if note = 255 then .silent else .note note.toNat

end Sys2Proof.Machine
end

