-- ==== Sys2Proof/Machine/Operands.lean ====
section
/-! DEFINITION. The operand forms of the score: numbers (R120), accidentals (R121), per-note durations
(R122), dots (R123), and what a token does with them (R113 to R116, R124, R125). Each loop of the spec's
pseudocode runs over the score bytes that remain; it always ends by itself, at the latest at the end
sentinel, so the bound never cuts it short. -/

namespace Sys2Proof.Machine

open Sys2Proof

/-! ## Numbers -/

/-- The value of an ASCII digit (R120). -/
def digitValue (c : Byte) : Option Nat :=
  if 0x30 ≤ c.toNat ∧ c.toNat ≤ 0x39 then some (c.toNat - 0x30) else none

/-- One more digit of a number, with the check of its width (R120). -/
def addDigit (n v : Nat) : Except FaultCode Nat :=
  if 65535 < 10 * n + v then .error .ovfNum else .ok (10 * n + v)

/-- The loop of `Number()` (R120), `n` read so far. -/
def numberLoop : Nat → Nat → State → Except FaultCode (Nat × State)
  | 0, n, s => .ok (n, s.skipSpaces)
  | k + 1, n, s =>
    match digitValue s.skipSpaces.char with
    | none => .ok (n, s.skipSpaces)
    | some v =>
      match addDigit n v with
      | .error code => .error code
      | .ok n' => numberLoop k n' s.skipSpaces.advance

/-- `Number()` continued from `n`; from 0 it is the whole of it (R120). -/
def readNumber (n : Nat) (s : State) : Except FaultCode (Nat × State) := numberLoop s.remaining n s

/-! ## Accidentals -/

/-- A pitch raised by `k` semitones; a rest stays a rest (R112, R121). -/
def Pitch.shift (p : Pitch) (k : Int) : Pitch :=
  match p with
  | .silent => .silent
  | .note n => .note (n + k)

/-- The first loop of R121: `+` and `#` raise a semitone. -/
def sharpsLoop : Nat → Pitch → State → Pitch × State
  | 0, p, s => (p, s.skipSpaces)
  | k + 1, p, s =>
    if s.skipSpaces.char = 0x2B ∨ s.skipSpaces.char = 0x23 then
      sharpsLoop k (p.shift 1) s.skipSpaces.advance
    else (p, s.skipSpaces)

/-- The sharps at the cursor (R121). -/
def readSharps (p : Pitch) (s : State) : Pitch × State := sharpsLoop s.remaining p s

/-- The second loop of R121: `-` lowers a semitone. -/
def flatsLoop : Nat → Pitch → State → Pitch × State
  | 0, p, s => (p, s.skipSpaces)
  | k + 1, p, s =>
    if s.skipSpaces.char = 0x2D then flatsLoop k (p.shift (-1)) s.skipSpaces.advance
    else (p, s.skipSpaces)

/-- The flats at the cursor (R121). -/
def readFlats (p : Pitch) (s : State) : Pitch × State := flatsLoop s.remaining p s

/-! ## Dots and the note tail -/

/-- One dot: the bonus added, with the check of the width (R123). -/
def addDot (d bonus : Nat) : Except FaultCode Nat :=
  if 65535 < d + bonus then .error .ovfDur else .ok (d + bonus)

/-- The loop of R123. -/
def dotsLoop : Nat → Nat → Nat → State → Except FaultCode (Nat × State)
  | 0, d, _, s => .ok (d, s.skipSpaces)
  | k + 1, d, bonus, s =>
    if s.skipSpaces.char = 0x2E then
      match addDot d bonus with
      | .error code => .error code
      | .ok d' => dotsLoop k d' (bonus / 2) s.skipSpaces.advance
    else .ok (d, s.skipSpaces)

/-- The dots at the cursor (R123). -/
def readDots (d bonus : Nat) (s : State) : Except FaultCode (Nat × State) :=
  dotsLoop s.remaining d bonus s

/-- The staccato split (R124): the rest is half of the duration, rounded down, if staccato is on. -/
def Engine.splitRest (e : Engine) (d : Nat) : Nat := if e.staccato then d / 2 else 0

/-- `STACC_REST` after the split (R124); without staccato it is not written. -/
def Engine.withSplit (e : Engine) (d : Nat) : Engine :=
  if e.staccato then { e with staccRest := BitVec.ofNat 16 (d / 2) } else e

/-- The plan of the note or rest a pull issues, for the duration `d` before the split (R124, R125). -/
def planItem (s : State) (p : Pitch) (d : Nat) : Except FaultCode ToneParams :=
  planNote s.cfg p (BitVec.ofNat 16 (d - s.eng.splitRest d)) (s.eng.volume.setWidth 8)

/-- The split and the issue, which end the pull (R124, R125). -/
def issueItem (p : Pitch) (d : Nat) (s : State) : Except FaultCode State :=
  match planItem s p d with
  | .error code => .error code
  | .ok params => .ok (s.mapEng fun e => (e.withSplit d).toneStart params).closePull

/-- The tail from the dots on (R123 to R125). -/
def tailFromDots (p : Pitch) (d bonus : Nat) (s : State) : Except FaultCode State :=
  match readDots d bonus s with
  | .error code => .error code
  | .ok (d', s') => issueItem p d' s'

/-- The tail from inside the per-note duration on (R122 to R125), `n` read so far. -/
def tailFromDenominator (p : Pitch) (n : Nat) (s : State) : Except FaultCode State :=
  match readNumber n s with
  | .error code => .error code
  | .ok (m, s') =>
    if m = 0 then .error .div0
    else tailFromDots p (s'.eng.wholeMs.toNat / m) (s'.eng.wholeMs.toNat / m / 2) s'

/-- The per-note duration or the default one, and the rest of the tail (R122 to R125); the cursor is
where R121 leaves it. -/
def tailFromDuration (p : Pitch) (s : State) : Except FaultCode State :=
  if s.cfg.durFirstDigits.contains s.char then tailFromDenominator p 0 s
  else tailFromDots p s.eng.duration.toNat (s.eng.duration.toNat / 2) s

/-- The tail from the flats on (R121 to R125). -/
def tailFromFlats (p : Pitch) (s : State) : Except FaultCode State :=
  tailFromDuration (readFlats p s).1 (readFlats p s).2

/-- The whole tail of a note or rest letter (R121 to R125). -/
def tailFromSharps (p : Pitch) (s : State) : Except FaultCode State :=
  tailFromFlats (readSharps p s).1 (readSharps p s).2

/-! ## Settings -/

/-- `O<n>` (R113). -/
def applyOctave (n : Nat) (s : State) : Except FaultCode State :=
  .ok ((s.mapEng fun e => { e with octave := BitVec.ofNat 16 n }).withTmpOct n)

/-- The whole-note duration in ms of tempo `n` (R114, C1). -/
def wholeNoteMs (n : Nat) : Nat := 24000 / n * 10

/-- `T<n>` (R114). -/
def applyTempo (n : Nat) (s : State) : Except FaultCode State :=
  if n = 0 then .error .div0
  else if 65535 < wholeNoteMs n then .error .ovfDur
  else .ok (s.mapEng fun e =>
    { e with
      wholeMs := BitVec.ofNat 16 (wholeNoteMs n)
      duration := BitVec.ofNat 16 (wholeNoteMs n / e.noteType.toNat) })

/-- `L<n>` (R115). -/
def applyLength (n : Nat) (s : State) : Except FaultCode State :=
  if n = 0 then .error .div0
  else .ok (s.mapEng fun e =>
    { e with
      noteType := BitVec.ofNat 16 n
      duration := BitVec.ofNat 16 (e.wholeMs.toNat / n) })

/-- `V<n>` (R116). -/
def applyVolume (n : Nat) (s : State) : Except FaultCode State :=
  .ok (s.mapEng fun e => { e with volume := BitVec.ofNat 4 (min n 15) })

/-- A settings token with its number read (R113 to R116); the pull is back at the token loop. -/
def applySetting (setting : Setting) (n : Nat) (s : State) : Except FaultCode State :=
  match setting with
  | .octave => applyOctave n (s.atPlace .tokens)
  | .tempo => applyTempo n (s.atPlace .tokens)
  | .length => applyLength n (s.atPlace .tokens)
  | .volume => applyVolume n (s.atPlace .tokens)

/-- A settings token from inside its number on, `n` read so far (R113 to R116, R120). -/
def settingFromNumber (setting : Setting) (n : Nat) (s : State) : Except FaultCode State :=
  match readNumber n s with
  | .error code => .error code
  | .ok (m, s') => applySetting setting m s'

/-! ## Tokens -/

/-- The end of the sequence (R119), which ends the pull. -/
def endOfScore (s : State) : State := (s.mapEng fun e => e.endSequence s.cfg).closePull

/-- What the pull does where the byte at the cursor does not continue the place it stands at: in the
token loop the byte is consumed and ends the sequence (R119); inside a token the pseudocode goes on
from there, with the byte not yet consumed (R73). -/
def resumeAt (place : Place) (s : State) : Except FaultCode State :=
  match place with
  | .tokens => .ok (endOfScore s.advance)
  | .number setting n => settingFromNumber setting n s
  | .sharps p => tailFromSharps p s
  | .flats p => tailFromFlats p s
  | .denominator p n => tailFromDenominator p n s
  | .dots p d bonus => tailFromDots p d bonus s

/-- A score byte run where the pull stands: at a place that accepts it, it is consumed (`Advance`, R100)
and has the effect `effect` gives; elsewhere the pull goes on without it. -/
def runByte (effect : Place → Option (State → Except FaultCode State)) (s : State) : Answer :=
  s.unlessHalted (s.settle
    (match effect s.currentPull.place with
     | some f => f s.opened.advance
     | none => resumeAt s.currentPull.place s.opened))

/-- A token: a byte that only the token loop accepts (R100). -/
def runToken (f : State → Except FaultCode State) (s : State) : Answer :=
  runByte (fun place => match place with
    | .tokens => some f
    | _ => none) s

/-- The accidental that raises a semitone (R121). -/
def sharpEffect (place : Place) : Option (State → Except FaultCode State) :=
  match place with
  | .sharps p => some fun s => .ok (s.atPlace (.sharps (p.shift 1)))
  | _ => none

/-- The accidental that lowers a semitone: it continues the flats, or ends the sharps (R121). -/
def flatEffect (place : Place) : Option (State → Except FaultCode State) :=
  match place with
  | .sharps p => some fun s => .ok (s.atPlace (.flats (p.shift (-1))))
  | .flats p => some fun s => .ok (s.atPlace (.flats (p.shift (-1))))
  | _ => none

/-- A digit of value `v` in a number (R120). -/
def digitEffect (v : Nat) (place : Place) : Option (State → Except FaultCode State) :=
  match place with
  | .number setting n => some fun s =>
      match addDigit n v with
      | .error code => .error code
      | .ok n' => .ok (s.atPlace (.number setting n'))
  | .denominator p n => some fun s =>
      match addDigit n v with
      | .error code => .error code
      | .ok n' => .ok (s.atPlace (.denominator p n'))
  | _ => none

/-- A dot after a note or a rest (R123). -/
def dotEffect (place : Place) : Option (State → Except FaultCode State) :=
  match place with
  | .dots p d bonus => some fun s =>
      match addDot d bonus with
      | .error code => .error code
      | .ok d' => .ok (s.atPlace (.dots p d' (bonus / 2)))
  | _ => none

/-- A note letter of pitch class `pc`: `idx <- pc + 12 * tmpOct`, then the tail (R100, R105 to R111). -/
def noteToken (pc : Nat) (s : State) : Except FaultCode State :=
  tailFromSharps (.note (pc + 12 * s.tmpOct)) s

/-- A settings token: its number, then its effect (R113 to R116). -/
def settingToken (setting : Setting) (s : State) : Except FaultCode State :=
  settingFromNumber setting 0 s

/-- The second character of `MS` or `ML`, consumed whatever it is (R117). -/
def State.consumeSecond (s : State) : State := s.skipSpaces.advance

end Sys2Proof.Machine
end

