-- ==== Sys2Proof/Machine/Modifiers.lean ====
section
/-! DEFINITION. The score bytes that live inside a token: accidentals (R121), digits (R120, R122), dots
(R123) and the space (R53). Where the token loop meets one of them, other than a space, it ends the
sequence (R119). -/

namespace Sys2Proof.Machine

open Sys2Proof

/-- `+` (R121). -/
def execSharpPlus (s : State) : Answer := runByte sharpEffect s

/-- `#`, the same as `+` (R121). -/
def execSharpHash (s : State) : Answer := runByte sharpEffect s

/-- `-` (R121). -/
def execFlat (s : State) : Answer := runByte flatEffect s

/-- A digit '0' to '7' (R120). -/
def execDigitLow (value : BitVec 3) (s : State) : Answer := runByte (digitEffect value.toNat) s

/-- A digit '8' or '9' (R120). -/
def execDigitHigh (value : BitVec 1) (s : State) : Answer := runByte (digitEffect (8 + value.toNat)) s

/-- `.` (R123). -/
def execDot (s : State) : Answer := runByte dotEffect s

/-- The space: consumed wherever it stands, ending no token (R53). -/
def execSpace (s : State) : Answer := s.unlessHalted (.next s.advance)

end Sys2Proof.Machine
end

