-- ==== Sys2Proof/Machine/Notes.lean ====
section
/-! DEFINITION. The score tokens that end a pull: the note letters (R105 to R111), the rest (R112) and
the terminator (R119); and the octave shifts that go before a note (R103, R104). -/

namespace Sys2Proof.Machine

open Sys2Proof

/-- `>`: `tmpOct <- tmpOct + 1` (R103). -/
def execOctaveUp (s : State) : Answer := runToken (fun t => .ok (t.withTmpOct (t.tmpOct + 1))) s

/-- `<`: `tmpOct <- tmpOct - 1` (R104). -/
def execOctaveDown (s : State) : Answer := runToken (fun t => .ok (t.withTmpOct (t.tmpOct - 1))) s

/-- `A`: pitch class 9, then the tail (R105, R121 to R125). -/
def execNoteA (s : State) : Answer := runToken (noteToken 9) s

/-- `B`: pitch class 11, then the tail (R106, R121 to R125). -/
def execNoteB (s : State) : Answer := runToken (noteToken 11) s

/-- `C`: pitch class 0, then the tail (R107, R121 to R125). -/
def execNoteC (s : State) : Answer := runToken (noteToken 0) s

/-- `D`: pitch class 2, then the tail (R108, R121 to R125). -/
def execNoteD (s : State) : Answer := runToken (noteToken 2) s

/-- `E`: pitch class 4, then the tail (R109, R121 to R125). -/
def execNoteE (s : State) : Answer := runToken (noteToken 4) s

/-- `F`: pitch class 5, then the tail (R110, R121 to R125). -/
def execNoteF (s : State) : Answer := runToken (noteToken 5) s

/-- `G`: pitch class 7, then the tail (R111, R121 to R125). -/
def execNoteG (s : State) : Answer := runToken (noteToken 7) s

/-- `R`: the tail of a note, played as silence (R112, R121 to R125). -/
def execRest (s : State) : Answer := runToken (tailFromSharps .silent) s

/-- A terminator ends the sequence where the token loop meets it (R119); inside a token it only ends
that token and is not consumed (R73). -/
def execTerminator (_byte : Byte) (s : State) : Answer := runToken (fun t => .ok (endOfScore t)) s

end Sys2Proof.Machine
end

