-- ==== Sys2Proof/Machine/Settings.lean ====
section
/-! DEFINITION. The settings tokens of the score: octave, tempo, default duration and volume (R113 to
R116), the music style (R117) and the reset of the music state (R118). -/

namespace Sys2Proof.Machine

open Sys2Proof

/-- `O<n>` (R113). -/
def execSetOctave (s : State) : Answer := runToken (settingToken .octave) s

/-- `T<n>` (R114). -/
def execSetTempo (s : State) : Answer := runToken (settingToken .tempo) s

/-- `L<n>` (R115). -/
def execSetLength (s : State) : Answer := runToken (settingToken .length) s

/-- `V<n>` (R116). -/
def execSetVolume (s : State) : Answer := runToken (settingToken .volume) s

/-- The registers after `ML` (R117). -/
def Engine.setLegato (e : Engine) : Engine := { e with staccato := false }

/-- The registers after `MS` (R117). -/
def Engine.setStaccato (e : Engine) : Engine := { e with staccato := true, staccRest := 0 }

/-- `ML` (R117). -/
def execLegato (s : State) : Answer :=
  runToken (fun t => .ok (t.consumeSecond.mapEng Engine.setLegato)) s

/-- `MS`, and `M` before any byte other than `L` (R117); that byte is consumed. -/
def execStaccato (_second : Byte) (s : State) : Answer :=
  runToken (fun t => .ok (t.consumeSecond.mapEng Engine.setStaccato)) s

/-- The registers after `!` (R118). -/
def Engine.resetMusic (e : Engine) : Engine :=
  { e with
    octave := 4
    wholeMs := 2000
    noteType := 4
    duration := 500
    volume := 15
    staccato := false }

/-- `!` (R118); it also cancels the temporary octave. -/
def execResetMusic (s : State) : Answer :=
  runToken (fun t => .ok ((t.mapEng Engine.resetMusic).withTmpOct 4)) s

end Sys2Proof.Machine
end

