-- ==== Sys2Proof/Machine/Pull.lean ====
section
/-! DEFINITION. The pull (R100, R101): the pending staccato rest, or score tokens one after another until
one of them ends the pull. -/

namespace Sys2Proof.Machine

open Sys2Proof

/-- The meaning of a score token, for the pull's loop: the meanings `exec` calls. -/
def execToken (i : Instr) (s : State) : Answer :=
  match i with
  | .octaveUp => execOctaveUp s
  | .octaveDown => execOctaveDown s
  | .noteA => execNoteA s
  | .noteB => execNoteB s
  | .noteC => execNoteC s
  | .noteD => execNoteD s
  | .noteE => execNoteE s
  | .noteF => execNoteF s
  | .noteG => execNoteG s
  | .rest => execRest s
  | .setOctave => execSetOctave s
  | .setTempo => execSetTempo s
  | .setLength => execSetLength s
  | .setVolume => execSetVolume s
  | .legato => execLegato s
  | .staccato second => execStaccato second s
  | .resetMusic => execResetMusic s
  | .sharpPlus => execSharpPlus s
  | .sharpHash => execSharpHash s
  | .flat => execFlat s
  | .digitLow value => execDigitLow value s
  | .digitHigh value => execDigitHigh value s
  | .dot => execDot s
  | .space => execSpace s
  | .terminator byte => execTerminator byte s
  | .playFreq _ _ _ => .fault .commandInScore
  | .playNote _ _ _ => .fault .commandInScore
  | .playSeq _ _ => .fault .commandInScore
  | .playMode _ => .fault .commandInScore
  | .playCheck => .fault .commandInScore
  | .isPlaying => .fault .commandInScore
  | .stop => .fault .commandInScore
  | .illegalCmd _ => .fault .commandInScore

/-- The token loop of R100, with a bound on the number of tokens: each token either ends the pull or
consumes a byte, so the bytes that remain and one more token are enough. -/
def pullLoop : Nat → State → Answer
  | 0, s => if s.pull.isNone then .next s else .fault .pullBound
  | k + 1, s =>
    if s.pull.isNone then .next s
    else
      match execToken s.nextToken s with
      | .next t => pullLoop k t
      | .fault r => .fault r
      | .refused r => .refused r

/-- The pending staccato rest played as a silent note (R101). -/
def playPendingRest (s : State) : Except FaultCode State :=
  match planNote s.cfg .silent s.eng.staccRest 0 with
  | .error code => .error code
  | .ok params => .ok (s.mapEng fun e => ({ e with staccRest := 0 } : Engine).toneStart params).closePull

/-- `Pull()` inside an agent step that began with the registers `origin` (R100, R101, R138). -/
def runPull (origin : Engine) (s : State) : Answer :=
  if s.eng.restPending then
    (s.openPull origin).settle (playPendingRest (s.openPull origin))
  else pullLoop (s.remaining + 1) (s.openPull origin)

end Sys2Proof.Machine
end

