-- ==== Sys2Proof/Machine/Commands.lean ====
section
/-! DEFINITION. The host commands (R126 to R137). Each is one atomic step: a command that pulls runs its
pull to the end, and a fault rolls the whole step back (R138, R145). -/

namespace Sys2Proof.Machine

open Sys2Proof

/-- A tone that a host command plays: the session ends and the tone starts (R127, R128). -/
def playPlanned (s : State) (planned : Except FaultCode ToneParams) : Except FaultCode State :=
  match planned with
  | .error code => .error code
  | .ok params => .ok (s.mapEng fun e => e.endSession.toneStart params)

/-- `PLAY_FREQ` (R127). -/
def execPlayFreq (freq dur : Half) (vol : Byte) (s : State) : Answer :=
  s.unlessHalted (s.settle (playPlanned s (plan s.cfg freq dur vol)))

/-- `PLAY_NOTE` (R128). -/
def execPlayNote (note : Byte) (dur : Half) (vol : Byte) (s : State) : Answer :=
  s.unlessHalted (s.settle (playPlanned s (planNote s.cfg (hostPitch note) dur vol)))

/-- The cursor `PLAY_SEQ` sets up (R129). -/
def Engine.startScore (e : Engine) (base len : Half) : Engine :=
  { e with seqBase := base, seqLen := len, seqOff := 0, seqActive := true, staccRest := 0 }

/-- `PLAY_SEQ` (R129). -/
def execPlaySeq (base len : Half) (s : State) : Answer :=
  s.unlessHalted (runPull s.eng (s.mapEng fun e => e.startScore base len))

/-- The pull of R130 and R131, if it is due. -/
def pullIfDue (origin : Engine) (s : State) : Answer :=
  if s.eng.pullDue then runPull origin s else .next s

/-- `MODE` written (R130). -/
def Engine.setMode (e : Engine) (mode : Mode) : Engine := { e with mode := mode }

/-- `PLAY_MODE` (R130). -/
def execPlayMode (mode : Mode) (s : State) : Answer :=
  s.unlessHalted
    (match mode with
     | .automatic => pullIfDue s.eng (s.mapEng fun e => e.setMode .automatic)
     | .checkDriven => .next (s.mapEng fun e => e.setMode .checkDriven))

/-- The end of `PLAY_CHECK`: the response, unless the pull faulted (R131, R138). -/
def State.answerActive (s : State) : State :=
  if s.halted then s else s.mapEng fun e => e.respond e.seqActive

/-- `PLAY_CHECK` (R131). -/
def execPlayCheck (s : State) : Answer :=
  s.unlessHalted
    (match pullIfDue s.eng s with
     | .next t => .next t.answerActive
     | .fault r => .fault r
     | .refused r => .refused r)

/-- `IS_PLAYING` (R132). -/
def execIsPlaying (s : State) : Answer :=
  s.unlessHalted (.next (s.mapEng fun e => e.respond e.playing))

/-- The registers after `STOP` (R133). -/
def Engine.stop (e : Engine) (cfg : Config) : Engine :=
  ({ e.silence cfg with finished := true } : Engine).endSession

/-- `STOP` (R133). -/
def execStop (s : State) : Answer := s.unlessHalted (.next (s.mapEng fun e => e.stop s.cfg))

/-- An illegal command word (R137). -/
def execIllegalCmd (_word : CommandWord) (s : State) : Answer :=
  s.unlessHalted (s.settle (.error .illegalCmd))

end Sys2Proof.Machine
end

