-- ==== Sys2Proof/Machine/Dispatch.lean ====
section
/-! DEFINITION. One arm per instruction, each one direct call of its meaning. -/

namespace Sys2Proof.Machine

open Sys2Proof

def exec (i : Instr) (s : State) : Host.Outcome State Fault Refusal :=
  match i with
  | .playFreq freq dur vol => Sys2Proof.Machine.execPlayFreq freq dur vol s
  | .playNote note dur vol => Sys2Proof.Machine.execPlayNote note dur vol s
  | .playSeq base len => Sys2Proof.Machine.execPlaySeq base len s
  | .playMode mode => Sys2Proof.Machine.execPlayMode mode s
  | .playCheck => Sys2Proof.Machine.execPlayCheck s
  | .isPlaying => Sys2Proof.Machine.execIsPlaying s
  | .stop => Sys2Proof.Machine.execStop s
  | .illegalCmd word => Sys2Proof.Machine.execIllegalCmd word s
  | .octaveUp => Sys2Proof.Machine.execOctaveUp s
  | .octaveDown => Sys2Proof.Machine.execOctaveDown s
  | .noteA => Sys2Proof.Machine.execNoteA s
  | .noteB => Sys2Proof.Machine.execNoteB s
  | .noteC => Sys2Proof.Machine.execNoteC s
  | .noteD => Sys2Proof.Machine.execNoteD s
  | .noteE => Sys2Proof.Machine.execNoteE s
  | .noteF => Sys2Proof.Machine.execNoteF s
  | .noteG => Sys2Proof.Machine.execNoteG s
  | .rest => Sys2Proof.Machine.execRest s
  | .setOctave => Sys2Proof.Machine.execSetOctave s
  | .setTempo => Sys2Proof.Machine.execSetTempo s
  | .setLength => Sys2Proof.Machine.execSetLength s
  | .setVolume => Sys2Proof.Machine.execSetVolume s
  | .legato => Sys2Proof.Machine.execLegato s
  | .staccato second => Sys2Proof.Machine.execStaccato second s
  | .resetMusic => Sys2Proof.Machine.execResetMusic s
  | .sharpPlus => Sys2Proof.Machine.execSharpPlus s
  | .sharpHash => Sys2Proof.Machine.execSharpHash s
  | .flat => Sys2Proof.Machine.execFlat s
  | .digitLow value => Sys2Proof.Machine.execDigitLow value s
  | .digitHigh value => Sys2Proof.Machine.execDigitHigh value s
  | .dot => Sys2Proof.Machine.execDot s
  | .space => Sys2Proof.Machine.execSpace s
  | .terminator byte => Sys2Proof.Machine.execTerminator byte s

end Sys2Proof.Machine
end

