-- ==== Sys2Proof/Machine/World.lean ====
section
/-! DEFINITION. What comes from outside the commands: the tick (R141 to R143), the host placing score
bytes (R63, R156), reset (R155), and the placing of one instruction where the next step runs it. -/

namespace Sys2Proof.Machine

open Sys2Proof

/-- The registers after the expiry of a tone, before any pull (R142). -/
def Engine.expire (e : Engine) (cfg : Config) : Engine :=
  { ({ e with timeout := 0xFFFF } : Engine).silence cfg with finished := true }

/-- The sequence goes on by itself at an expiry (R142). -/
def Engine.pullsAtExpiry (e : Engine) : Bool := e.seqActive && e.mode == .automatic

/-- The expiry of a tone (R142). -/
def expiry (s : State) : Answer :=
  if s.eng.pullsAtExpiry then runPull s.eng (s.mapEng fun e => e.expire s.cfg)
  else .next (s.mapEng fun e => e.expire s.cfg)

/-- The countdown of a tick that does not expire (R143). -/
def Engine.countDown (e : Engine) : Engine := { e with timeout := e.timeout - 1 }

/-- The TICK agent may step (R141). -/
def State.tickEnabled (s : State) : Bool := s.eng.tickIE && !s.halted

/-- One overflow of the tone timer: the tick step where the TICK agent may step, lost where it may not
(R41, R141 to R143). -/
def tick (s : State) : Answer :=
  if s.tickEnabled then
    if s.eng.timeout = 0 then expiry s else .next (s.mapEng Engine.countDown)
  else .next s

/-- The host places one score byte, which it may do only while no sequence is active (R63, R160). -/
def placeByte (addr : Half) (byte : Byte) (s : State) : Answer :=
  if s.eng.seqActive then .refused .scoreWriteDuringPlayback
  else .next { s with mem := s.mem.write addr.toNat byte }

/-- One step of the outside world (R5). -/
def takeInput (input : Input) (s : State) : Answer :=
  match input with
  | .command w => exec (decodeCommand w) s
  | .tick => tick s
  | .load addr byte => placeByte addr byte s
  | .reset => .next s.restart

/-- One step where no pull is in progress: the next thing the outside world does, and when it does
nothing more, a tick (R144). -/
def agentStep (s : State) : Answer :=
  match s.inputs with
  | [] => tick s
  | input :: later => takeInput input { s with inputs := later }

/-- One step where a pull is in progress: the score byte at the cursor. -/
def tokenStep (s : State) : Answer := exec s.nextToken s

/-! ## Placing one instruction -/

/-- The state whose next step is the HOST agent issuing `w`. -/
def State.withCommandWord (s : State) (w : CommandWord) : State :=
  { s with inputs := .command w :: s.inputs, pull := none }

/-- The place at which a score byte has the meaning of its own row: accidentals after a note letter,
digits in a per-note duration, dots after a note; every other byte at the token loop (R71). -/
def placeFor (e : Engine) (i : Instr) : Place :=
  match i with
  | .sharpPlus | .sharpHash | .flat => .sharps (.note (12 * e.octave.toNat))
  | .digitLow _ | .digitHigh _ => .denominator (.note (12 * e.octave.toNat)) 0
  | .dot => .dots (.note (12 * e.octave.toNat)) e.duration.toNat (e.duration.toNat / 2)
  | .playFreq _ _ _ | .playNote _ _ _ | .playSeq _ _ | .playMode _ | .playCheck | .isPlaying
  | .stop | .illegalCmd _ | .octaveUp | .octaveDown | .noteA | .noteB | .noteC | .noteD | .noteE
  | .noteF | .noteG | .rest | .setOctave | .setTempo | .setLength | .setVolume | .legato
  | .staccato _ | .resetMusic | .space | .terminator _ => .tokens

/-- The memory with bytes placed from `addr` on, wrapping at the top of the address space (R58). -/
def Memory.writeFrom (m : Memory) (addr : Half) (bytes : List Byte) : Memory :=
  match bytes with
  | [] => m
  | b :: later => Memory.writeFrom (m.write addr.toNat b) (addr + 1) later

/-- The registers with the cursor at the start of a score of `len` bytes at `SEQ_BASE`. -/
def Engine.atScore (e : Engine) (len : Nat) : Engine :=
  { e with seqActive := true, seqOff := 0, seqLen := BitVec.ofNat 16 len }

/-- The state in whose next step a pull reads the first of `bytes`, a score placed at `SEQ_BASE`. -/
def State.withScoreBytes (s : State) (bytes : List Byte) : State :=
  { s with
    mem := s.mem.writeFrom s.eng.seqBase bytes
    eng := s.eng.atScore bytes.length
    pull := some
      { entry := s.eng.atScore bytes.length
        tmpOct := s.eng.octave.toNat
        place := placeFor s.eng (decodeScore bytes) } }

/-- The state whose next step runs the instruction of a table word. -/
def State.withTableWord (s : State) (nbits w : Nat) : State :=
  match tableWords nbits w with
  | some (.command word) => s.withCommandWord word
  | some (.score bytes) => s.withScoreBytes bytes
  | none => s.withCommandWord (BitVec.ofNat 48 w)

end Sys2Proof.Machine
end

