-- ==== Sys2Proof/Machine/Step.lean ====
section
/-! DEFINITION. One step of the machine (R5, R145): a pull in progress goes on by one score byte; else one
agent takes one whole atomic step. -/

namespace Sys2Proof.Machine

open Sys2Proof

/-- One step. -/
def step (s : State) : Host.Outcome State Fault Refusal :=
  if s.pull.isSome then tokenStep s else agentStep s

/-- The state with the instruction of a table word placed where the next step runs it: a command word at
the command port, or score bytes at the cursor of a pull in progress (log entry 5). -/
def State.withFetchWord (s : State) (nbits w : Nat) : State := s.withTableWord nbits w

end Sys2Proof.Machine
end

