-- ==== Sys2Proof/Safety.lean ====
section
/-! DEFINITION. The terms the claims use: text at the score cursor, what a note's text asks for, the
registers after a tone or at the baseline, the invariants, and what a safe run is. Nothing here is part
of the machine. -/

namespace Sys2Proof.Machine

open Sys2Proof

/-! ## Score text -/

/-- The score bytes from the cursor to the end of the score (R52). -/
def State.scoreAhead (s : State) : List Byte :=
  (List.range s.remaining).map fun k => s.byteAt (s.eng.seqOff + BitVec.ofNat 16 k)

/-- `text` stands at the cursor. -/
abbrev State.shows (s : State) (text : List Byte) : Prop := text <+: s.scoreAhead

/-- The folded character `k` bytes after the cursor (R52, R53). -/
def State.charAfter (s : State) (k : Nat) : Byte :=
  foldCase (s.byteAt (s.eng.seqOff + BitVec.ofNat 16 k))

/-- The state with the cursor `k` bytes further. -/
def State.movedBy (s : State) (k : Nat) : State :=
  { s with eng := { s.eng with seqOff := s.eng.seqOff + BitVec.ofNat 16 k } }

/-- How many bytes of a text are not spaces. -/
def solidCount (text : List Byte) : Nat := (text.filter fun c => c ≠ 0x20).length

/-- The decimal value of a text of digits and spaces (R74). -/
def decimalValue (text : List Byte) : Nat :=
  (text.filter fun c => c ≠ 0x20).foldl (fun n c => 10 * n + (c.toNat - 0x30)) 0

/-- An ASCII digit (R71). -/
def isDigit (c : Byte) : Bool := decide (0x30 ≤ c.toNat) && decide (c.toNat ≤ 0x39)

/-- A duration with `k` dots: the bonuses are halved and truncated one after another (R123). -/
def dottedDuration (d : Nat) : Nat → Nat
  | 0 => d
  | k + 1 => dottedDuration d k + d / 2 ^ (k + 1)

/-! ## The text of a note -/

/-- What may follow a note letter or a rest letter, in the order R72 gives: sharps, flats, the digits
of a per-note duration, dots; spaces anywhere. -/
structure NoteText where
  sharps : List Byte
  flats : List Byte
  digits : List Byte
  dots : List Byte
deriving DecidableEq, Repr

/-- The text as it stands in the score. -/
def NoteText.text (n : NoteText) : List Byte := n.sharps ++ n.flats ++ n.digits ++ n.dots

/-- Every part holds its own characters and spaces only (R72). -/
def NoteText.wf (n : NoteText) : Bool :=
  n.sharps.all (fun c => c == 0x2B || c == 0x23 || c == 0x20) &&
  n.flats.all (fun c => c == 0x2D || c == 0x20) &&
  n.digits.all (fun c => isDigit c || c == 0x20) &&
  n.dots.all (fun c => c == 0x2E || c == 0x20)

/-- The pitch with the accidentals applied (R121). -/
def NoteText.pitch (n : NoteText) (p : Pitch) : Pitch :=
  p.shift ((solidCount n.sharps : Int) - solidCount n.flats)

/-- The duration before the dots: the default one, or a fraction of the whole note (R122). -/
def NoteText.baseDuration (n : NoteText) (e : Engine) : Nat :=
  if solidCount n.digits = 0 then e.duration.toNat else e.wholeMs.toNat / decimalValue n.digits

/-- The duration with the dots, before the staccato split (R122, R123). -/
def NoteText.duration (n : NoteText) (e : Engine) : Nat :=
  dottedDuration (n.baseDuration e) (solidCount n.dots)

/-- The per-note duration, if there is one, begins with a character that may begin one, is not 0 and
fits 16 bits (R120, R122). -/
def NoteText.durationLegal (n : NoteText) (cfg : Config) : Bool :=
  solidCount n.digits == 0 ||
    (cfg.durFirstDigits.contains (firstNonSpace n.digits) &&
      decide (decimalValue n.digits ≠ 0) && decide (decimalValue n.digits ≤ 65535))

/-- A character that is no space and that no part of a note's text could go on with. -/
def endsNote (cfg : Config) (c : Byte) : Bool :=
  !([0x20, 0x2B, 0x23, 0x2D, 0x2E].contains c || isDigit c || cfg.durFirstDigits.contains c)

/-- The pitch classes of the note letters (R105 to R111); a rest has none. -/
def letterPitch (i : Instr) (tmpOct : Int) : Option Pitch :=
  match i with
  | .noteA => some (.note (9 + 12 * tmpOct))
  | .noteB => some (.note (11 + 12 * tmpOct))
  | .noteC => some (.note (0 + 12 * tmpOct))
  | .noteD => some (.note (2 + 12 * tmpOct))
  | .noteE => some (.note (4 + 12 * tmpOct))
  | .noteF => some (.note (5 + 12 * tmpOct))
  | .noteG => some (.note (7 + 12 * tmpOct))
  | .rest => some .silent
  | .playFreq _ _ _ | .playNote _ _ _ | .playSeq _ _ | .playMode _ | .playCheck | .isPlaying
  | .stop | .illegalCmd _ | .octaveUp | .octaveDown | .setOctave | .setTempo | .setLength
  | .setVolume | .legato | .staccato _ | .resetMusic | .sharpPlus | .sharpHash | .flat
  | .digitLow _ | .digitHigh _ | .dot | .space | .terminator _ => none

/-- The bytes that end the sequence where the token loop meets them (R119): a terminator, and the bytes
that have a place only inside a token. -/
def endsSequence (i : Instr) : Bool :=
  match i with
  | .terminator _ | .sharpPlus | .sharpHash | .flat | .digitLow _ | .digitHigh _ | .dot => true
  | .playFreq _ _ _ | .playNote _ _ _ | .playSeq _ _ | .playMode _ | .playCheck | .isPlaying
  | .stop | .illegalCmd _ | .octaveUp | .octaveDown | .noteA | .noteB | .noteC | .noteD | .noteE
  | .noteF | .noteG | .rest | .setOctave | .setTempo | .setLength | .setVolume | .legato
  | .staccato _ | .resetMusic | .space => false

/-- The duration a note tail starts its dots from, as the pull computes it (R122). -/
def noteDuration (s : State) : Except FaultCode (Nat × State) :=
  if s.cfg.durFirstDigits.contains s.char then
    match readNumber 0 s with
    | .error code => .error code
    | .ok (n, t) => if n = 0 then .error .div0 else .ok (t.eng.wholeMs.toNat / n, t)
  else .ok (s.eng.duration.toNat, s)

/-! ## Registers after a tone, at the baseline, after a fault -/

/-- The registers after `ToneStart(p)`, written out (R95). -/
def Engine.afterTone (e : Engine) (p : ToneParams) : Engine :=
  { e with
    toneFreq := p.freq, tonePrescale := p.prescale, toneTop := p.top, toneDuty := p.duty
    timeout := p.timeout, finished := false, tickIE := true
    trace := e.trace ++ [.tone p] }

/-- The registers after `Silence()` with `FINISHED` set by its caller, written out (R96, R119, R133,
R142). -/
def Engine.atBaseline (e : Engine) (cfg : Config) : Engine :=
  { e with
    tickIE := false, toneFreq := 1000, tonePrescale := .div1
    toneTop := BitVec.ofNat 16 ((cfg.toneClkHz.val + 500) / 1000)
    toneDuty := 0, finished := true
    trace := e.trace ++ [.silent] }

/-- The registers after a fault, written out: nothing but `FAULT` and `FAULT_CAUSE` (R11). -/
def Engine.afterFault (e : Engine) (code : FaultCode) : Engine :=
  { e with
    fault := e.fault ||| code.mask
    faultCause := if e.faultCause = 0 then code.cause else e.faultCause }

/-- The state after a pull that issued a note or a rest of duration `d` before the split (R124, R125). -/
def State.afterItem (s : State) (d : Nat) (p : ToneParams) : State :=
  { s with
    eng := ({ s.eng with
      staccRest := if s.eng.staccato then BitVec.ofNat 16 (d / 2) else s.eng.staccRest } :
        Engine).afterTone p
    pull := none }

/-- The state after the end of the sequence (R119). -/
def State.afterEnd (s : State) : State :=
  { s with
    eng :=
      { ({ s.eng with seqActive := false } : Engine).atBaseline s.cfg with
        trace := s.eng.trace ++ [.silent, .endOfSequence] }
    pull := none }

/-- The state after a fault raised in an agent step that began with the registers of `s`. -/
def State.afterFault (s : State) (code : FaultCode) : State :=
  { s with eng := s.eng.afterFault code, pull := none }

/-- Run in `s`, `i` goes on from `b`, the pitch and the state the accidentals leave: the duration, the dots,
the split and the issue, which ends the pull; where one of them faults the step is rolled back (R122 to
R125, R138). -/
def tailGoesOn (i : Instr) (s : State) (b : Pitch × State) : Prop :=
  (∀ code, noteDuration b.2 = .error code →
    exec i s = .next { s with eng := s.origin.afterFault code, pull := none }) ∧
  (∀ d u, noteDuration b.2 = .ok (d, u) →
    (∀ code, readDots d (d / 2) u = .error code →
      exec i s = .next { s with eng := s.origin.afterFault code, pull := none }) ∧
    (∀ d' v, readDots d (d / 2) u = .ok (d', v) →
      (let sounding := if v.eng.staccato then d' - d' / 2 else d'
       let planned := planNote v.cfg b.1 (BitVec.ofNat 16 sounding) (v.eng.volume.setWidth 8)
       (∀ code, planned = .error code →
         exec i s = .next { s with eng := s.origin.afterFault code, pull := none }) ∧
       (∀ q, planned = .ok q → exec i s = .next (v.afterItem d' q)))))

/-! ## Invariants -/

/-- R30: `DURATION = WHOLE_MS div NOTE_TYPE` and `NOTE_TYPE >= 1`. -/
def Engine.musicOk (e : Engine) : Bool :=
  e.noteType != 0 && e.duration == BitVec.ofNat 16 (e.wholeMs.toNat / e.noteType.toNat)

/-- A number that a pull has read in part fits 16 bits (R74, R120). -/
def Place.numberFits (p : Place) : Bool :=
  match p with
  | .number _ n => decide (n ≤ 65535)
  | .denominator _ n => decide (n ≤ 65535)
  | .tokens | .sharps _ | .flats _ | .dots _ _ _ => true

/-- R30 in a state: of its registers, and of those a fault in a pull would roll back to; and a number read
in part in a pull in progress, which may become `NOTE_TYPE`, fits 16 bits (R120). -/
def State.musicOk (s : State) : Bool :=
  s.eng.musicOk && s.pull.all fun c => c.entry.musicOk && c.place.numberFits

/-- R36, R139: no fault and no cause, or the bit and the code of one and the same fault. -/
def Engine.faultOk (e : Engine) : Prop :=
  (e.fault = 0 ∧ e.faultCause = 0) ∨ ∃ c : FaultCode, e.fault = c.mask ∧ e.faultCause = c.cause

/-- The fault registers of a state are those of at most one fault, and none where a pull is in progress
(R138). -/
structure State.FaultInv (s : State) : Prop where
  registers : s.eng.faultOk
  inPull : ∀ c, s.pull = some c →
    s.eng.fault = 0 ∧ s.eng.faultCause = 0 ∧ c.entry.fault = 0 ∧ c.entry.faultCause = 0

/-- What holds of the session before and after every agent step. -/
structure State.SessionInv (s : State) : Prop where
  /-- No pull is left half done (R145). -/
  noPull : s.pull = none
  /-- The cursor is never past the score (R27). -/
  cursor : s.eng.seqOff.toNat ≤ s.eng.seqLen.toNat
  /-- The tick interrupt is enabled exactly while a tone counts down (R22, R33). -/
  ticking : s.eng.tickIE = !s.eng.finished
  /-- A pending rest belongs to a staccato sequence (R101). -/
  pending : s.eng.staccRest ≠ 0 → s.eng.staccato = true ∧ s.eng.seqActive = true
  /-- In Automatic mode no finished note waits (R131). -/
  noneWaiting : s.eng.mode = .automatic → ¬(s.eng.finished = true ∧ s.eng.seqActive = true)
  /-- The duty value is at most half of the top value (R94, R96). -/
  duty : 2 * s.eng.toneDuty.toNat ≤ s.eng.toneTop.toNat

/-! ## Safe runs -/

/-- A step that stops: a fault of the model or a refusal. -/
def stops (a : Answer) : Bool :=
  match a with
  | .next _ => false
  | .fault _ => true
  | .refused _ => true

/-- The instruction of the command word that the host issues next, if that is its next move (R126). -/
def State.nextCommand (s : State) : Option Instr :=
  match s.inputs.head? with
  | some (.command w) => some (decodeCommand w)
  | some .tick | some (.load _ _) | some .reset | none => none

/-- The host's next move is one R63 does not give it, or, outside the score itself, one the model does not
(log entry 6). -/
def State.hostWritesDuringPlayback (s : State) : Prop :=
  s.pull = none ∧ s.eng.seqActive = true ∧ ∃ addr byte later, s.inputs = .load addr byte :: later

end Sys2Proof.Machine
end

