-- ==== Sys2Proof/Certificates/Slice0/Obligations.lean ====
section
/-! DEFINITION. The statements for the provers. A state is *live* where `s.halted = false`; a score token
is run at the head of the token loop where `s.currentPull.place = .tokens` (R100). -/

open Sys2Proof Sys2Proof.Machine

/-! ## Encodings -/

/-- R66, R67, R71: decoding what the encoder writes gives the instruction back, for every well-formed
instruction and every value of its operands. -/
def Obligations.DecodeOfEncodeIsIdentity : Prop :=
  ∀ i : Instr, i.wf = true → decode (encode i) = i

/-- R66 to R68: encoding what a command word decodes to gives the word back, so no bit of a command word
is dropped and no two words share a meaning. -/
def Obligations.EncodeOfDecodedCommandIsTheWord : Prop :=
  ∀ w : CommandWord, encode (decodeCommand w) = .command w

/-- R68, R71: whatever the words, the decoder answers an instruction that has an encoding. -/
def Obligations.DecodedInstructionIsWellFormed : Prop :=
  ∀ ws : Words, (decode ws).wf = true

/-- R68, R137: a word that spells no command decodes to `ILLEGAL_CMD`, which raises the fault and writes
nothing else; no other word does. -/
def Obligations.UnspelledWordRaisesIllegalCmd : Prop :=
  ∀ (w : CommandWord) (s : State), s.halted = false → s.pull = none →
    (let op := (w.extractLsb' 40 8).toNat
     let spellsNothing : Prop :=
       op = 0 ∨ 8 ≤ op ∨
       (op = 2 ∧ w.extractLsb' 32 8 ≠ 0) ∨ (op = 3 ∧ w.extractLsb' 0 8 ≠ 0) ∨
       (op = 4 ∧ w.extractLsb' 1 39 ≠ 0) ∨ (5 ≤ op ∧ op ≤ 7 ∧ w.extractLsb' 0 40 ≠ 0)
     (spellsNothing →
        decodeCommand w = .illegalCmd w ∧
        exec (.illegalCmd w) s = .next (s.afterFault .illegalCmd)) ∧
     (¬spellsNothing → ∀ v, decodeCommand w ≠ .illegalCmd v))

/-- R67, R71, R77, R127, R128: words written out from the spec's encodings decode to what they stand
for. -/
def Obligations.SpecWordsDecode : Prop :=
  decode (.command 0x0101B803E80F) = .playFreq 440 1000 15 ∧
  decode (.command 0x02003901F40F) = .playNote 57 500 15 ∧
  decode (.command 0x030100000E00) = .playSeq 0x0100 14 ∧
  decode (.command 0x040000000001) = .playMode .checkDriven ∧
  decode (.command 0x050000000001) = .illegalCmd 0x050000000001 ∧
  decode (.score [0x43, 0x44]) = .noteC ∧ decode (.score [0x63]) = .noteC ∧
  decode (.score [0x4D, 0x20, 0x6C]) = .legato ∧ decode (.score [0x4D, 0x53]) = .staccato 0x53 ∧
  decode (.score [0x37]) = .digitLow 7 ∧ decode (.score [0x39]) = .digitHigh 1

/-! ## Steps -/

/-- R5, R63, R126, R145, R155, R156: where no pull is in progress a step takes the next thing the outside
world does: a command word runs the instruction it decodes to, on the state with that word taken; a timer
overflow is one tick; a score byte placed while no sequence is active stands in the sequence memory and
changes nothing else; reset makes every register its reset value, and keeps the parameters, the sequence
memory and what is still to come (the model's reading, log entry 14). With nothing to come the tick agent
steps: the model's choice of how its fairness (R144) shows (log entry 3). A byte placed while a sequence is
active is in StepStopsOnlyOnScoreWrite. -/
def Obligations.StepRunsTheNextInput : Prop :=
  ∀ (s : State), s.pull = none →
    (∀ w later, s.inputs = .command w :: later →
      step s = exec (decode (.command w)) { s with inputs := later }) ∧
    (∀ later, s.inputs = .tick :: later → step s = tick { s with inputs := later }) ∧
    (∀ addr byte later, s.inputs = .load addr byte :: later → s.eng.seqActive = false →
      step s = .next { s with inputs := later, mem := s.mem.write addr.toNat byte } ∧
      (s.mem.wf = true → ∀ a, (s.mem.write addr.toNat byte).read a =
        if a = addr.toNat then byte else s.mem.read a)) ∧
    (∀ later, s.inputs = .reset :: later →
      step s = .next { s with inputs := later, eng := (State.resetWith s.cfg).eng }) ∧
    (s.inputs = [] → step s = tick s)

/-- R71, R100: where a pull is in progress, as the model's own view of one has it (log entry 4), a step runs
the instruction that the score from the cursor on decodes to. -/
def Obligations.StepRunsTheTokenAtTheCursor : Prop :=
  ∀ (s : State) (c : PullState), s.pull = some c →
    step s = exec (decode (.score s.scoreAhead)) s

/-- The model's own placing of one instruction (log entry 5): the next step runs exactly the instruction
that the table word decodes to. -/
def Obligations.PlacedWordRunsNext : Prop :=
  ∀ (s : State) (nbits w : Nat) (i : Instr), s.mem.wf = true → decodeTableWord nbits w = some i →
    step (s.withFetchWord nbits w) =
      exec i (if nbits = 48 then { s with pull := none } else s.withFetchWord nbits w)

/-! ## Host commands -/

/-- R127: `PLAY_FREQ` plays the plan of its operands and ends the session; where the plan faults, the
fault is all that happens. -/
def Obligations.PlayFreqPlaysThePlan : Prop :=
  ∀ (s : State) (freq dur : Half) (vol : Byte), s.halted = false → s.pull = none →
    (∀ p, plan s.cfg freq dur vol = .ok p →
      exec (.playFreq freq dur vol) s = .next
        { s with
          eng := ({ s.eng with seqActive := false, staccRest := 0 } : Engine).afterTone p }) ∧
    (∀ code, plan s.cfg freq dur vol = .error code →
      exec (.playFreq freq dur vol) s = .next (s.afterFault code))

/-- R128: `PLAY_NOTE` plays the plan of its note, 255 standing for the silent note, and ends the session;
where the plan faults, the fault is all that happens. -/
def Obligations.PlayNotePlaysThePlan : Prop :=
  ∀ (s : State) (note : Byte) (dur : Half) (vol : Byte), s.halted = false → s.pull = none →
    (let pitch : Pitch := if note.toNat = 255 then .silent else .note note.toNat
     (∀ p, planNote s.cfg pitch dur vol = .ok p →
      exec (.playNote note dur vol) s = .next
        { s with
          eng := ({ s.eng with seqActive := false, staccRest := 0 } : Engine).afterTone p }) ∧
     (∀ code, planNote s.cfg pitch dur vol = .error code →
      exec (.playNote note dur vol) s = .next (s.afterFault code)))

/-- R129, R119: `PLAY_SEQ` of a score whose first byte ends the sequence (a score of length 0 among them)
sets the cursor up, consumes that byte and ends at once. -/
def Obligations.PlaySeqOfEndedScoreEndsAtOnce : Prop :=
  ∀ (s : State) (base len : Half), s.halted = false →
    (let u : State := { s with
        eng := { s.eng with
          seqBase := base, seqLen := len, seqOff := 0, seqActive := true, staccRest := 0 } }
     endsSequence u.nextToken = true →
      exec (.playSeq base len) s = .next
        ({ u with eng := { u.eng with
          seqOff := BitVec.ofNat 16 (min 1 len.toNat) } } : State).afterEnd)

/-- R129, R100: `PLAY_SEQ` of a score that begins with a note letter or a rest letter plays that note or
rest, or faults as that token does, and stops there: the step is the cursor's set-up and then that one
token. -/
def Obligations.PlaySeqPlaysTheFirstItem : Prop :=
  ∀ (s : State) (base len : Half), s.halted = false →
    (let u : State := { s with
        eng := { s.eng with
          seqBase := base, seqLen := len, seqOff := 0, seqActive := true, staccRest := 0 }
        pull := some { entry := s.eng, tmpOct := s.eng.octave.toNat, place := .tokens } }
     (letterPitch u.nextToken u.tmpOct).isSome = true →
      ∃ t, exec (.playSeq base len) s = .next t ∧ exec u.nextToken u = .next t ∧ t.pull = none)

/-- R129, R134: whatever the score, `PLAY_SEQ` answers a next state, in which the sequence plays, or the
engine is idle because the first pull ended the score, or nothing but a fault is recorded. -/
def Obligations.PlaySeqPlaysOrEndsOrFaults : Prop :=
  ∀ (s : State) (base len : Half), s.halted = false → s.pull = none →
    ∃ t, exec (.playSeq base len) s = .next t ∧
      ((∃ code, t = s.afterFault code) ∨
       (t.halted = false ∧ t.pull = none ∧ t.mem = s.mem ∧ t.cfg = s.cfg ∧ t.inputs = s.inputs ∧
        t.eng.seqBase = base ∧ t.eng.seqLen = len ∧ t.eng.seqOff.toNat ≤ len.toNat ∧
        t.eng.mode = s.eng.mode ∧ t.eng.resp = s.eng.resp ∧
        ((t.eng.status = .playingSequence ∧ t.eng.finished = false ∧ t.eng.tickIE = true) ∨
         (t.eng.status = .idle ∧ t.eng.tickIE = false))))

/-- R130: `PLAY_MODE` writes `MODE`; switching to `Automatic` while a finished note waits pulls in the
same step. -/
def Obligations.PlayModeSwitchesAndCatchesUp : Prop :=
  ∀ s : State, s.halted = false →
    exec (.playMode .checkDriven) s =
      .next { s with eng := { s.eng with mode := .checkDriven } } ∧
    (¬(s.eng.finished = true ∧ s.eng.seqActive = true) →
      exec (.playMode .automatic) s =
        .next { s with eng := { s.eng with mode := .automatic } }) ∧
    (s.eng.finished = true ∧ s.eng.seqActive = true →
      ∃ t, exec (.playMode .automatic) s = .next t ∧
        runPull s.eng { s with eng := { s.eng with mode := .automatic } } = .next t)

/-- R131: `PLAY_CHECK` pulls where a finished note waits, then answers whether a sequence is active; where
the pull faults, there is no answer. -/
def Obligations.PlayCheckAdvancesAndAnswers : Prop :=
  ∀ s : State, s.halted = false →
    (¬(s.eng.finished = true ∧ s.eng.seqActive = true) →
      exec .playCheck s = .next { s with eng := { s.eng with
        resp := s.eng.seqActive, trace := s.eng.trace ++ [.resp s.eng.seqActive] } }) ∧
    (s.eng.finished = true ∧ s.eng.seqActive = true →
      ∃ t, runPull s.eng s = .next t ∧
        exec .playCheck s = .next (if t.halted then t else { t with eng := { t.eng with
          resp := t.eng.seqActive, trace := t.eng.trace ++ [.resp t.eng.seqActive] } }))

/-- R132, R44: `IS_PLAYING` answers whether a tone is sounding or a sequence is active. -/
def Obligations.IsPlayingAnswers : Prop :=
  ∀ s : State, s.halted = false →
    (let b := decide (s.eng.finished = false ∨ s.eng.seqActive = true)
     exec .isPlaying s = .next { s with eng := { s.eng with
       resp := b, trace := s.eng.trace ++ [.resp b] } })

/-- R133: `STOP` silences the output, ends the session and leaves the engine idle; a second `STOP` changes
no register. -/
def Obligations.StopSilencesAndEndsTheSession : Prop :=
  ∀ s : State, s.halted = false →
    ∃ t, exec .stop s = .next t ∧ t.eng.status = .idle ∧
      t = { s with
        eng := ({ s.eng with seqActive := false, staccRest := 0 } : Engine).atBaseline s.cfg } ∧
      exec .stop t = .next { t with eng := { t.eng with trace := t.eng.trace ++ [.silent] } }

/-! ## Pulls -/

/-- R101: a pending staccato rest is what a pull plays: 1000 Hz at duty 0 for as many ticks, no score byte
read, the pending rest cleared. -/
def Obligations.PendingRestPlaysFirst : Prop :=
  ∀ (origin : Engine) (s : State), s.eng.staccato = true → s.eng.staccRest ≠ 0 →
    runPull origin s = .next
      { s with
        eng := ({ s.eng with staccRest := 0 } : Engine).afterTone
          { freq := 1000, prescale := .div1
            top := BitVec.ofNat 16 ((s.cfg.toneClkHz.val + 500) / 1000)
            duty := 0, timeout := s.eng.staccRest }
        pull := none }

/-- R119: a pull that meets a byte the token loop does not take consumes it and ends the sequence. -/
def Obligations.PullEndsAtATerminator : Prop :=
  ∀ (origin : Engine) (s : State), s.halted = false →
    ¬(s.eng.staccato = true ∧ s.eng.staccRest ≠ 0) → endsSequence s.nextToken = true →
    runPull origin s = .next s.advance.afterEnd

/-- R100, R145: a pull with no pending rest is the same as running its score tokens one step at a time,
from the opened pull until the pull is over, and needs at most one token for each remaining score byte
and one more. The single token steps are the model's own view of a pull (log entry 4). -/
def Obligations.PullIsItsTokenSteps : Prop :=
  ∀ (origin : Engine) (s : State), s.halted = false →
    ¬(s.eng.staccato = true ∧ s.eng.staccRest ≠ 0) →
    ∃ n t, 1 ≤ n ∧ n ≤ s.remaining + 1 ∧ runPull origin s = .next t ∧ t.pull = none ∧
      Host.Core.run Sys2Proof.core n (s.openPull origin) = .next t ∧
      ∀ k < n, ∃ u : State,
        Host.Core.run Sys2Proof.core k (s.openPull origin) = .next u ∧ u.pull.isSome = true

/-! ## Score tokens -/

/-- R102 to R104: `>` and `<` move the temporary octave by one, consume their byte and write no other
register. -/
def Obligations.OctaveShiftsAreTemporary : Prop :=
  ∀ s : State, s.halted = false → s.currentPull.place = .tokens →
    exec .octaveUp s = .next { s.advance with
      pull := some { s.currentPull with tmpOct := s.currentPull.tmpOct + 1 } } ∧
    exec .octaveDown s = .next { s.advance with
      pull := some { s.currentPull with tmpOct := s.currentPull.tmpOct - 1 } }

/-- R105 to R112, R121 to R125: a note letter, or `R`, consumes its byte, reads its accidentals, duration
and dots, and issues the note of its pitch class (or a rest), which ends the pull; where a part of the
tail or the plan faults, the step is rolled back. -/
def Obligations.LettersPlayTheirTail : Prop :=
  ∀ (s : State) (i : Instr) (p : Pitch), s.halted = false → s.currentPull.place = .tokens →
    letterPitch i s.tmpOct = some p →
    (let a := readSharps p s.opened.advance
     let b := readFlats a.1 a.2
     (∀ code, noteDuration b.2 = .error code →
        exec i s = .next { s with eng := s.origin.afterFault code, pull := none }) ∧
     (∀ d u, noteDuration b.2 = .ok (d, u) →
       (∀ code, readDots d (d / 2) u = .error code →
          exec i s = .next { s with eng := s.origin.afterFault code, pull := none }) ∧
       (∀ d' v, readDots d (d / 2) u = .ok (d', v) →
         (let sounding := if v.eng.staccato then d' - d' / 2 else d'
          (∀ code, planNote v.cfg b.1 (BitVec.ofNat 16 sounding) (v.eng.volume.setWidth 8) =
              .error code →
            exec i s = .next { s with eng := s.origin.afterFault code, pull := none }) ∧
          (∀ q, planNote v.cfg b.1 (BitVec.ofNat 16 sounding) (v.eng.volume.setWidth 8) = .ok q →
            exec i s = .next (v.afterItem d' q))))))

/-- R72, R105 to R112, R121 to R125: a letter followed by the text of a note plays the note of that text:
the pitch class with the accidentals counted, the duration as its digits and dots say, split if staccato
is on, at the current volume; the cursor moves past the text, the pull is over, and nothing else changes.
It is stated for parameters by which a per-note duration begins with digits only, as by default and as in
D16. -/
def Obligations.NoteTextPlaysItsNote : Prop :=
  ∀ (s : State) (i : Instr) (p : Pitch) (n : NoteText) (q : ToneParams),
    s.halted = false → s.currentPull.place = .tokens → letterPitch i s.tmpOct = some p →
    (∀ c ∈ s.cfg.durFirstDigits, isDigit c = true) →
    n.wf = true → n.durationLegal s.cfg = true → n.duration s.eng ≤ 65535 →
    s.advance.shows n.text → endsNote s.cfg (s.advance.charAfter n.text.length) = true →
    planNote s.cfg (n.pitch p)
      (BitVec.ofNat 16 (if s.eng.staccato then n.duration s.eng - n.duration s.eng / 2
        else n.duration s.eng)) (s.eng.volume.setWidth 8) = .ok q →
    exec i s = .next ((s.advance.movedBy n.text.length).afterItem (n.duration s.eng) q)

/-- R113: `O<n>` writes `OCTAVE` and the temporary octave with its number; a number that faults rolls the
step back. -/
def Obligations.SetOctaveWritesTheOctave : Prop :=
  ∀ s : State, s.halted = false → s.currentPull.place = .tokens →
    (∀ n t, readNumber 0 s.opened.advance = .ok (n, t) →
      exec .setOctave s = .next { t with
        eng := { t.eng with octave := BitVec.ofNat 16 n }
        pull := some { s.currentPull with tmpOct := n } }) ∧
    (∀ code, readNumber 0 s.opened.advance = .error code →
      exec .setOctave s = .next { s with eng := s.origin.afterFault code, pull := none })

/-- R114: `T<n>` writes the whole-note duration `(24000 div n) * 10` and the default duration; 0 and a
duration past 16 bits fault. -/
def Obligations.SetTempoWritesTheDurations : Prop :=
  ∀ s : State, s.halted = false → s.currentPull.place = .tokens →
    (∀ n t, readNumber 0 s.opened.advance = .ok (n, t) →
      (n = 0 → exec .setTempo s = .next { s with eng := s.origin.afterFault .div0, pull := none }) ∧
      (n ≠ 0 → 65535 < 24000 / n * 10 →
        exec .setTempo s = .next { s with eng := s.origin.afterFault .ovfDur, pull := none }) ∧
      (n ≠ 0 → 24000 / n * 10 ≤ 65535 →
        exec .setTempo s = .next { t with eng := { t.eng with
          wholeMs := BitVec.ofNat 16 (24000 / n * 10)
          duration := BitVec.ofNat 16 (24000 / n * 10 / t.eng.noteType.toNat) } })) ∧
    (∀ code, readNumber 0 s.opened.advance = .error code →
      exec .setTempo s = .next { s with eng := s.origin.afterFault code, pull := none })

/-- R115: `L<n>` writes the default denominator and the default duration; 0 faults. -/
def Obligations.SetLengthWritesTheDenominator : Prop :=
  ∀ s : State, s.halted = false → s.currentPull.place = .tokens →
    (∀ n t, readNumber 0 s.opened.advance = .ok (n, t) →
      (n = 0 → exec .setLength s = .next { s with eng := s.origin.afterFault .div0, pull := none }) ∧
      (n ≠ 0 → exec .setLength s = .next { t with eng := { t.eng with
          noteType := BitVec.ofNat 16 n
          duration := BitVec.ofNat 16 (t.eng.wholeMs.toNat / n) } })) ∧
    (∀ code, readNumber 0 s.opened.advance = .error code →
      exec .setLength s = .next { s with eng := s.origin.afterFault code, pull := none })

/-- R116: `V<n>` writes the volume, clamped to 15. -/
def Obligations.SetVolumeClampsTheVolume : Prop :=
  ∀ s : State, s.halted = false → s.currentPull.place = .tokens →
    (∀ n t, readNumber 0 s.opened.advance = .ok (n, t) →
      exec .setVolume s = .next { t with eng := { t.eng with
        volume := BitVec.ofNat 4 (min n 15) } }) ∧
    (∀ code, readNumber 0 s.opened.advance = .error code →
      exec .setVolume s = .next { s with eng := s.origin.afterFault code, pull := none })

/-- R117: `ML` and `MS` consume both characters, with the spaces between them, and write `STACCATO`; `MS`
also clears the pending rest. -/
def Obligations.MusicStyleWritesStaccato : Prop :=
  ∀ (s : State) (second : Byte), s.halted = false → s.currentPull.place = .tokens →
    (let u := s.opened.advance.skipSpaces.advance
     exec .legato s = .next { u with eng := { u.eng with staccato := false } } ∧
     exec (.staccato second) s = .next { u with eng := { u.eng with
       staccato := true, staccRest := 0 } })

/-- R118: `!` writes the six registers of the music state with their defaults and cancels the temporary
octave; nothing else changes but the cursor. -/
def Obligations.ResetMusicRestoresDefaults : Prop :=
  ∀ s : State, s.halted = false → s.currentPull.place = .tokens →
    exec .resetMusic s = .next { s.advance with
      eng := { s.advance.eng with
        octave := 4, wholeMs := 2000, noteType := 4, duration := 500, volume := 15
        staccato := false }
      pull := some { s.currentPull with tmpOct := 4 } }

/-- R119: in the token loop a terminator, an accidental, a digit or a dot is consumed and ends the
sequence: the output silenced, the session idle, the pull over. -/
def Obligations.TerminatorEndsTheSequence : Prop :=
  ∀ (s : State) (i : Instr), s.halted = false → s.currentPull.place = .tokens →
    endsSequence i = true → exec i s = .next s.advance.afterEnd

/-- R121: in the accidentals of a note, `+` and `#` raise the pitch by a semitone and `-` lowers it, and
no register but the cursor changes. After a `-` only `-` goes on: a `+` or a `#` that stands at the cursor
there stays unread, and the tail goes on with the duration from where it stands. That such a byte is a step
of its own is the model's view (log entry 4). -/
def Obligations.AccidentalBytesShiftThePitch : Prop :=
  ∀ (s : State) (p : Pitch), s.halted = false →
    (s.currentPull.place = .sharps p →
      exec .sharpPlus s = .next { s.advance with
        pull := some { s.currentPull with place := .sharps (p.shift 1) } } ∧
      exec .sharpHash s = .next { s.advance with
        pull := some { s.currentPull with place := .sharps (p.shift 1) } }) ∧
    (s.currentPull.place = .sharps p ∨ s.currentPull.place = .flats p →
      exec .flat s = .next { s.advance with
        pull := some { s.currentPull with place := .flats (p.shift (-1)) } }) ∧
    (s.currentPull.place = .flats p →
      (s.char = 0x2B ∨ s.char = 0x23 → readFlats p s.opened = (p, s.opened)) ∧
      tailGoesOn .sharpPlus s (readFlats p s.opened) ∧
      tailGoesOn .sharpHash s (readFlats p s.opened))

/-- R120, R122, R123: inside a number, of a settings token or of a per-note duration, a digit appends itself, with `OVF_NUM` past 65535; inside the dots a dot
adds its bonus and halves it, with `OVF_DUR` past 65535; no register but the cursor changes. That such a
byte is a step of its own is the model's view (log entry 4). -/
def Obligations.DigitAndDotBytesAccumulate : Prop :=
  ∀ s : State, s.halted = false →
    (∀ setting n, s.currentPull.place = .number setting n →
      (∀ v : BitVec 3, 10 * n + v.toNat ≤ 65535 →
        exec (.digitLow v) s = .next { s.advance with
          pull := some { s.currentPull with place := .number setting (10 * n + v.toNat) } }) ∧
      (∀ v : BitVec 1, 10 * n + (8 + v.toNat) ≤ 65535 →
        exec (.digitHigh v) s = .next { s.advance with
          pull := some { s.currentPull with place := .number setting (10 * n + (8 + v.toNat)) } }) ∧
      (∀ v : BitVec 3, 65535 < 10 * n + v.toNat →
        exec (.digitLow v) s = .next { s with eng := s.origin.afterFault .ovfNum, pull := none }) ∧
      (∀ v : BitVec 1, 65535 < 10 * n + (8 + v.toNat) →
        exec (.digitHigh v) s =
          .next { s with eng := s.origin.afterFault .ovfNum, pull := none })) ∧
    (∀ p n, s.currentPull.place = .denominator p n →
      (∀ v : BitVec 3, 10 * n + v.toNat ≤ 65535 →
        exec (.digitLow v) s = .next { s.advance with
          pull := some { s.currentPull with place := .denominator p (10 * n + v.toNat) } }) ∧
      (∀ v : BitVec 1, 10 * n + (8 + v.toNat) ≤ 65535 →
        exec (.digitHigh v) s = .next { s.advance with
          pull := some { s.currentPull with
            place := .denominator p (10 * n + (8 + v.toNat)) } }) ∧
      (∀ v : BitVec 3, 65535 < 10 * n + v.toNat →
        exec (.digitLow v) s = .next { s with eng := s.origin.afterFault .ovfNum, pull := none }) ∧
      (∀ v : BitVec 1, 65535 < 10 * n + (8 + v.toNat) →
        exec (.digitHigh v) s =
          .next { s with eng := s.origin.afterFault .ovfNum, pull := none })) ∧
    (∀ p d bonus, s.currentPull.place = .dots p d bonus →
      (d + bonus ≤ 65535 → exec .dot s = .next { s.advance with
        pull := some { s.currentPull with place := .dots p (d + bonus) (bonus / 2) } }) ∧
      (65535 < d + bonus → exec .dot s =
        .next { s with eng := s.origin.afterFault .ovfDur, pull := none }))

/-- R53, R73: a space is consumed wherever it stands and ends nothing. -/
def Obligations.SpaceIsOnlyConsumed : Prop :=
  ∀ s : State, s.halted = false → exec .space s = .next { s with
    eng := { s.eng with
      seqOff := BitVec.ofNat 16 (min (s.eng.seqOff.toNat + 1) s.eng.seqLen.toNat) } }

/-! ## Reading the score -/

/-- R53, R54: `Fetch` moves the cursor past the spaces that stand there, past nothing else and never past
the score, and the character it gives is the folded byte that stands after them. -/
def Obligations.FetchSkipsExactlyTheSpaces : Prop :=
  ∀ s : State, s.eng.seqOff.toNat ≤ s.eng.seqLen.toNat →
    ∃ k, k ≤ s.remaining ∧ s.skipSpaces = s.movedBy k ∧
      (∀ j < k, s.byteAt (s.eng.seqOff + BitVec.ofNat 16 j) = 0x20) ∧
      s.skipSpaces.scoreByte ≠ 0x20 ∧ s.skipSpaces.char = s.charAfter k

/-- R74, R120: a number is the decimal value of the digits that stand at the cursor, spaces among them
skipped; a value above 65535 faults. -/
def Obligations.NumberReadsItsDigits : Prop :=
  ∀ (s : State) (text : List Byte), text.all (fun c => isDigit c || c == 0x20) = true →
    s.shows text → s.charAfter text.length ≠ 0x20 → isDigit (s.charAfter text.length) = false →
    (decimalValue text ≤ 65535 →
      readNumber 0 s = .ok (decimalValue text, s.movedBy text.length)) ∧
    (65535 < decimalValue text → readNumber 0 s = .error .ovfNum)

/-- R121: the accidentals at the cursor shift the pitch by the sharps less the flats, all sharps first;
after a flat a sharp is left unread. -/
def Obligations.AccidentalsShiftThePitch : Prop :=
  ∀ (s : State) (p : Pitch) (sharps flats : List Byte),
    sharps.all (fun c => c == 0x2B || c == 0x23 || c == 0x20) = true →
    flats.all (fun c => c == 0x2D || c == 0x20) = true →
    s.shows (sharps ++ flats) →
    (let c := s.charAfter (sharps ++ flats).length
     c ≠ 0x20 ∧ c ≠ 0x2D ∧ (solidCount flats = 0 → c ≠ 0x2B ∧ c ≠ 0x23)) →
    readFlats (readSharps p s).1 (readSharps p s).2 =
      (p.shift ((solidCount sharps : Int) - solidCount flats),
        s.movedBy (sharps ++ flats).length)

/-- R123: each dot adds half of the previous bonus, truncated, the first half of the duration; a duration
past 65535 faults. -/
def Obligations.DotsAddHalvedBonuses : Prop :=
  ∀ (s : State) (d : Nat) (dots : List Byte), d ≤ 65535 →
    dots.all (fun c => c == 0x2E || c == 0x20) = true → s.shows dots →
    s.charAfter dots.length ≠ 0x20 → s.charAfter dots.length ≠ 0x2E →
    (dottedDuration d (solidCount dots) ≤ 65535 →
      readDots d (d / 2) s = .ok (dottedDuration d (solidCount dots), s.movedBy dots.length)) ∧
    (65535 < dottedDuration d (solidCount dots) → readDots d (d / 2) s = .error .ovfDur)

/-! ## The planner -/

/-- R88, R89: the planned frequency word is the word clamped to 40 Hz to 10 000 Hz, or to at least 400
tenths, in its own unit. -/
def Obligations.PlanClampsTheFrequency : Prop :=
  ∀ (cfg : Config) (fw d : Half) (v : Byte) (p : ToneParams), plan cfg fw d v = .ok p →
    (fw.getLsbD 15 = false → p.freq.toNat = min 10000 (max 40 fw.toNat)) ∧
    (fw.getLsbD 15 = true → p.freq.toNat = 32768 + max 400 (fw.toNat - 32768))

/-- R90, R91: above 200 Hz the plan takes the high-rate source, else the low-rate one; the timer top is
the rate over the frequency, rounded to nearest, and fits 16 bits for every legal clock; it is not 0 where
the clock is at least 5000. -/
def Obligations.PlanRoundsTheTimerTop : Prop :=
  ∀ (cfg : Config) (fw d : Half) (v : Byte) (p : ToneParams), plan cfg fw d v = .ok p →
    (let mult := if p.freq.getLsbD 15 then 10 else 1
     let f := p.freq.toNat % 32768
     let rate := if 200 * mult < f then cfg.toneClkHz.val else cfg.toneClkHz.val / 8
     p.prescale = (if 200 * mult < f then .div1 else .div8) ∧
     p.top.toNat = (rate * mult + f / 2) / f ∧
     (5000 ≤ cfg.toneClkHz.val → p.top ≠ 0))

/-- R94: the duty value is the top value halved once for each volume step below 16; volume 15 and above
give half of the top, volume 0 gives 0. -/
def Obligations.PlanHalvesTheDuty : Prop :=
  ∀ (cfg : Config) (fw d : Half) (v : Byte) (p : ToneParams), plan cfg fw d v = .ok p →
    p.duty.toNat = p.top.toNat / 2 ^ (16 - min v.toNat 15) ∧
    (15 ≤ v.toNat → p.duty.toNat = p.top.toNat / 2) ∧ (v.toNat = 0 → p.duty = 0)

/-- R92, R93: at 1000 Hz the timeout is the duration; at any other whole frequency it is the product over
1000, and exactly the products from 65 536 000 on fault. -/
def Obligations.PlanTimesOutOrFaults : Prop :=
  ∀ (cfg : Config) (fw d : Half) (v : Byte),
    (let fHz := if fw.getLsbD 15 then (max 400 (fw.toNat - 32768) + 5) / 10
       else min 10000 (max 40 fw.toNat)
     (fHz = 1000 → ∃ p, plan cfg fw d v = .ok p ∧ p.timeout = d) ∧
     (fHz ≠ 1000 → d.toNat * fHz < 65536000 →
       ∃ p, plan cfg fw d v = .ok p ∧ p.timeout.toNat = d.toNat * fHz / 1000) ∧
     (fHz ≠ 1000 → 65536000 ≤ d.toNat * fHz → plan cfg fw d v = .error .ovfTimeout))

/-- R86, R99: a silent note, and any note at volume 0, is 1000 Hz at duty 0 for as many ticks as ms and
never faults; a note index outside 16 to 111 plays the nearer bound; a volume above 15 plays as 15. That
an index of exactly 255 is clamped like the others, and is not the silent note, is the model's reading (log
entry 16). -/
def Obligations.PlanNoteClampsAndSilences : Prop :=
  ∀ (cfg : Config) (n : Int) (d : Half) (v : Byte),
    (let silent : ToneParams :=
       { freq := 1000, prescale := .div1, top := BitVec.ofNat 16 ((cfg.toneClkHz.val + 500) / 1000)
         duty := 0, timeout := d }
     planNote cfg .silent d v = .ok silent ∧ planNote cfg (.note n) d 0 = .ok silent ∧
     (v ≠ 0 → planNote cfg (.note n) d v =
       plan cfg (noteFreq cfg (max 16 (min n 111)).toNat) d (BitVec.ofNat 8 (min v.toNat 15))))

/-- R98: the frequency word of a playable note: the table value doubled once an octave, in tenths for two
octaves, in whole Hz rounded to nearest above. -/
def Obligations.NoteFreqDoublesTheTable : Prop :=
  ∀ (cfg : Config) (n : Nat), 16 ≤ n → n ≤ 111 →
    (let e := (n - 16) / 12
     let b := (cfg.noteTable[(n - 16) % 12]'(Nat.mod_lt _ (by decide))).val
     (e < 2 → (noteFreq cfg n).toNat = 32768 + b * 2 ^ e) ∧
     (2 ≤ e → e < 7 → (noteFreq cfg n).toNat = (b * 2 ^ e + 5) / 10) ∧
     (e = 7 → (noteFreq cfg n).toNat = (b * 64 + 2) / 5))

/-- R168: the real frequency of a planned tone is the requested one to within half a count of the timer
top, and to within 1% for every clock from 500 000 up, the reference clock among them. -/
def Obligations.PlannedTopRoundTrips : Prop :=
  ∀ (cfg : Config) (fw d : Half) (v : Byte) (p : ToneParams), plan cfg fw d v = .ok p →
    (let mult : Int := if p.freq.getLsbD 15 then 10 else 1
     let f : Int := (p.freq.toNat % 32768 : Nat)
     let rate : Int :=
       (if p.prescale = .div1 then cfg.toneClkHz.val else cfg.toneClkHz.val / 8 : Nat)
     2 * |rate * mult - f * p.top.toNat| ≤ f ∧
     (500000 ≤ cfg.toneClkHz.val → 100 * |rate * mult - f * p.top.toNat| ≤ f * p.top.toNat))

/-- R7 says that every clock from 1000 on gives every frequency a timer top of at least 1. It does not: at
1000 counts per second 10 000 Hz rounds to 0 (log entry 10). -/
def Obligations.EveryLegalClockGivesANonzeroTop : Prop :=
  ∀ (cfg : Config) (fw d : Half) (v : Byte) (p : ToneParams),
    plan cfg fw d v = .ok p → 1 ≤ p.top.toNat

/-! ## Ticks -/

/-- R41, R141 to R143: an overflow is lost where the TICK agent may not step; else the countdown goes down
by one, or at 0 the tone expires: baseline, `FINISHED`, and in Automatic mode the next pull. -/
def Obligations.TickCountsDownOrExpires : Prop :=
  ∀ s : State,
    (s.eng.tickIE = false ∨ s.halted = true → tick s = .next s) ∧
    (s.eng.tickIE = true → s.halted = false → s.eng.timeout ≠ 0 →
      tick s = .next { s with eng := { s.eng with
        timeout := BitVec.ofNat 16 (s.eng.timeout.toNat - 1) } }) ∧
    (s.eng.tickIE = true → s.halted = false → s.eng.timeout = 0 →
      (let u : State := { s with
          eng := ({ s.eng with timeout := 0xFFFF } : Engine).atBaseline s.cfg }
       (¬(s.eng.seqActive = true ∧ s.eng.mode = .automatic) → tick s = .next u) ∧
       (s.eng.seqActive = true ∧ s.eng.mode = .automatic →
         ∃ t, tick s = .next t ∧ runPull s.eng u = .next t)))

/-- R142, R166: a tone with `TIMEOUT` at `t` and nothing to follow it counts down through `t` ticks and
expires on the next one. That a step with nothing to come from outside is a tick is the model's choice (log
entry 3). -/
def Obligations.ToneExpiresAfterItsTimeout : Prop :=
  ∀ s : State, s.pull = none → s.inputs = [] → s.eng.tickIE = true → s.halted = false →
    ¬(s.eng.seqActive = true ∧ s.eng.mode = .automatic) →
    (∀ k ≤ s.eng.timeout.toNat, Host.Core.run Sys2Proof.core k s = .next { s with
      eng := { s.eng with timeout := BitVec.ofNat 16 (s.eng.timeout.toNat - k) } }) ∧
    Host.Core.run Sys2Proof.core (s.eng.timeout.toNat + 1) s = .next { s with
      eng := ({ s.eng with timeout := 0xFFFF } : Engine).atBaseline s.cfg }

/-! ## The machine as a whole -/

/-- R85, R126: every instruction answers a next state in every state; none stops. That a fault of the spec
is a next state is the model's reading of R138 (log entry 13), and what a token does with no pull in
progress, or a command with one, is the model's choice (log entry 8). -/
def Obligations.EveryInstructionAnswers : Prop :=
  ∀ (i : Instr) (s : State), ∃ t, exec i s = .next t

/-- R63, R160 (U9): a step stops only where the host would place a byte in the sequence memory while a
sequence is active, and there it is refused. The spec takes from the host the writes to the score's own
bytes; the refusal at every other address is the model's choice (log entry 6). -/
def Obligations.StepStopsOnlyOnScoreWrite : Prop :=
  ∀ s : State,
    (s.hostWritesDuringPlayback → step s = .refused .scoreWriteDuringPlayback) ∧
    (¬s.hostWritesDuringPlayback → ∃ t, step s = .next t)

/-- R138: while the engine is halted no instruction and no tick changes anything, and no step but reset
changes a register or the trace. -/
def Obligations.HaltedEngineChangesNothing : Prop :=
  ∀ s : State, s.halted = true →
    (∀ i, exec i s = .next s) ∧ tick s = .next s ∧
    (s.pull = none → s.inputs.head? ≠ some .reset →
      ∀ t, step s = .next t → t.eng = s.eng ∧ t.pull = none)

/-- R11, R138: a step that raises a fault leaves every register, the trace and the sequence memory as they
were before the step, but for `FAULT` and `FAULT_CAUSE`. -/
def Obligations.FaultsAreRolledBack : Prop :=
  ∀ s t : State, s.pull = none → s.halted = false → step s = .next t → t.halted = true →
    ∃ code : FaultCode,
      t.eng = { s.eng with
        fault := s.eng.fault ||| code.mask
        faultCause := if s.eng.faultCause = 0 then code.cause else s.eng.faultCause } ∧
      t.mem = s.mem ∧ t.cfg = s.cfg ∧ t.pull = none

/-- R36, R139: from a state whose fault registers hold no fault, or the bit and the code of one, every step
leads to such a state; so `FAULT_CAUSE` is never 6 or 7. -/
def Obligations.FaultRegistersAgree : Prop :=
  ∀ s t : State, s.FaultInv → step s = .next t → t.FaultInv

/-- R30: every step keeps `DURATION = WHOLE_MS div NOTE_TYPE` and `NOTE_TYPE >= 1`, of the registers and of
those a pull in progress would roll back to, and that a number such a pull has read in part fits 16 bits
(R120; a pull in progress is the model's own, log entry 4). -/
def Obligations.DurationFollowsTempoAndDenominator : Prop :=
  ∀ s t : State, s.musicOk = true → step s = .next t → t.musicOk = true

/-- R22, R27, R33, R94, R101, R131, R145: every agent step leaves no pull half done, the cursor within the
score, the tick enabled exactly while a tone counts down, a pending rest only in an active staccato
sequence, no finished note waiting in Automatic mode, and the duty at most half of the top. -/
def Obligations.AgentStepsKeepTheSession : Prop :=
  ∀ s t : State, s.SessionInv → step s = .next t → t.SessionInv

/-- R43, R155: after reset every register has the value the spec gives it and the trace is empty, for
every legal choice of the parameters. -/
def Obligations.ResetGivesTheStatedValues : Prop :=
  ∀ cfg : Config,
    (State.resetWith cfg).eng = {
      mode := .automatic, finished := true, resp := false, seqActive := false
      seqBase := 0, seqLen := 0, seqOff := 0, staccRest := 0
      octave := 4, noteType := 4, wholeMs := 2000, duration := 500, volume := 15
      staccato := false
      toneFreq := 1000, tonePrescale := .div1
      toneTop := BitVec.ofNat 16 ((cfg.toneClkHz.val + 500) / 1000), toneDuty := 0
      timeout := 0, tickIE := false, fault := 0, faultCause := 0, trace := [] } ∧
    (State.resetWith cfg).eng.status = .idle ∧ (State.resetWith cfg).halted = false

/-- The invariants hold at reset: of the fault registers, of the music state, of the session and of the
memory's canonical form. That nothing is listed in the memory and that the parameters of `State.reset`
are the reference ones is the model's choice (log entries 1 and 2). -/
def Obligations.InvariantsHoldAtReset : Prop :=
  (∀ cfg : Config,
    (let s := State.resetWith cfg
     s.FaultInv ∧ s.musicOk = true ∧ s.SessionInv ∧ s.mem.wf = true)) ∧
  State.reset.FaultInv ∧ State.reset.musicOk = true ∧ State.reset.SessionInv ∧
  State.reset.mem.wf = true

/-- R21, R136: `RESP` and the `Resp` events are written only by `PLAY_CHECK` and `IS_PLAYING`, and `MODE`
only by `PLAY_MODE`: no other instruction writes them, and no agent step that is not that command does, but
reset; a tick that pulls does not. -/
def Obligations.OnlyQueriesAnswerAndOnlyPlayModeSetsMode : Prop :=
  (∀ (i : Instr) (s t : State), s.pull = none → exec i s = .next t →
    (i ≠ .playCheck → i ≠ .isPlaying →
      t.eng.resp = s.eng.resp ∧
      t.eng.trace.filter (fun ev => match ev with | .resp _ => true | _ => false) =
        s.eng.trace.filter (fun ev => match ev with | .resp _ => true | _ => false)) ∧
    ((∀ m, i ≠ .playMode m) → t.eng.mode = s.eng.mode)) ∧
  (∀ s t : State, s.pull = none → s.inputs.head? ≠ some .reset → step s = .next t →
    (s.nextCommand ≠ some .playCheck → s.nextCommand ≠ some .isPlaying →
      t.eng.resp = s.eng.resp ∧
      t.eng.trace.filter (fun ev => match ev with | .resp _ => true | _ => false) =
        s.eng.trace.filter (fun ev => match ev with | .resp _ => true | _ => false)) ∧
    ((∀ m, s.nextCommand ≠ some (.playMode m)) → t.eng.mode = s.eng.mode))

/-- R37: no agent step but reset removes or changes an event of the output trace. -/
def Obligations.TraceOnlyGrows : Prop :=
  ∀ s t : State, s.pull = none → s.inputs.head? ≠ some .reset → step s = .next t →
    s.eng.trace <+: t.eng.trace

/-- R42, R50, R63: no instruction writes the sequence memory or the parameters; a byte of the memory
changes only where the host places one while no sequence is active, to the byte placed; and the memory
keeps its canonical form. The canonical form is the model's (log entry 2), the parameters are a field of its
state (log entry 7), and that reset keeps the memory is its reading of R155 (log entry 14). That a byte
placed does stand in the memory is in StepRunsTheNextInput. -/
def Obligations.OnlyTheHostWritesTheScoreMemory : Prop :=
  (∀ (i : Instr) (s t : State), exec i s = .next t →
    t.mem = s.mem ∧ t.cfg = s.cfg ∧ t.inputs = s.inputs) ∧
  (∀ s t : State, s.mem.wf = true → step s = .next t →
    t.mem.wf = true ∧ t.cfg = s.cfg ∧
    ∀ a : Nat, t.mem.read a = s.mem.read a ∨
      (s.pull = none ∧ s.eng.seqActive = false ∧
        ∃ (addr : Half) (byte : Byte) (later : List Input),
          s.inputs = .load addr byte :: later ∧ a = addr.toNat ∧ t.mem.read a = byte))

/-- R50 to R52: an instruction reads no byte of the sequence memory outside the score: where two memories
agree on the score's bytes, it does the same, and leaves each memory as it is. -/
def Obligations.BytesOutsideTheScoreAreNeverRead : Prop :=
  ∀ (i : Instr) (s t : State) (m : Memory),
    (let windowOf : State → State := fun u =>
       match i with
       | .playSeq base len => { u with eng := { u.eng with seqBase := base, seqLen := len } }
       | _ => u
     (∀ o : Half, (windowOf { s with mem := m }).byteAt o = (windowOf s).byteAt o)) →
    exec i s = .next t → exec i { s with mem := m } = .next { t with mem := m }
end

