-- ==== Sys2Proof/Laws/State.lean ====
section
/-! SUPPORT. One lemma per field per update: what each named operation leaves in each register and in
each field of the state. All hold by definition; later proofs never unfold a record update. -/

namespace Sys2Proof.Machine

open Sys2Proof

/-! ### `Engine.emit` (R37) -/

@[simp] theorem Engine.emit_mode (e : Engine) (ev : Event) : (e.emit ev).mode = e.mode := rfl
@[simp] theorem Engine.emit_finished (e : Engine) (ev : Event) : (e.emit ev).finished = e.finished := rfl
@[simp] theorem Engine.emit_resp (e : Engine) (ev : Event) : (e.emit ev).resp = e.resp := rfl
@[simp] theorem Engine.emit_seqActive (e : Engine) (ev : Event) : (e.emit ev).seqActive = e.seqActive := rfl
@[simp] theorem Engine.emit_seqBase (e : Engine) (ev : Event) : (e.emit ev).seqBase = e.seqBase := rfl
@[simp] theorem Engine.emit_seqLen (e : Engine) (ev : Event) : (e.emit ev).seqLen = e.seqLen := rfl
@[simp] theorem Engine.emit_seqOff (e : Engine) (ev : Event) : (e.emit ev).seqOff = e.seqOff := rfl
@[simp] theorem Engine.emit_staccRest (e : Engine) (ev : Event) : (e.emit ev).staccRest = e.staccRest := rfl
@[simp] theorem Engine.emit_octave (e : Engine) (ev : Event) : (e.emit ev).octave = e.octave := rfl
@[simp] theorem Engine.emit_noteType (e : Engine) (ev : Event) : (e.emit ev).noteType = e.noteType := rfl
@[simp] theorem Engine.emit_wholeMs (e : Engine) (ev : Event) : (e.emit ev).wholeMs = e.wholeMs := rfl
@[simp] theorem Engine.emit_duration (e : Engine) (ev : Event) : (e.emit ev).duration = e.duration := rfl
@[simp] theorem Engine.emit_volume (e : Engine) (ev : Event) : (e.emit ev).volume = e.volume := rfl
@[simp] theorem Engine.emit_staccato (e : Engine) (ev : Event) : (e.emit ev).staccato = e.staccato := rfl
@[simp] theorem Engine.emit_toneFreq (e : Engine) (ev : Event) : (e.emit ev).toneFreq = e.toneFreq := rfl
@[simp] theorem Engine.emit_tonePrescale (e : Engine) (ev : Event) : (e.emit ev).tonePrescale = e.tonePrescale := rfl
@[simp] theorem Engine.emit_toneTop (e : Engine) (ev : Event) : (e.emit ev).toneTop = e.toneTop := rfl
@[simp] theorem Engine.emit_toneDuty (e : Engine) (ev : Event) : (e.emit ev).toneDuty = e.toneDuty := rfl
@[simp] theorem Engine.emit_timeout (e : Engine) (ev : Event) : (e.emit ev).timeout = e.timeout := rfl
@[simp] theorem Engine.emit_tickIE (e : Engine) (ev : Event) : (e.emit ev).tickIE = e.tickIE := rfl
@[simp] theorem Engine.emit_fault (e : Engine) (ev : Event) : (e.emit ev).fault = e.fault := rfl
@[simp] theorem Engine.emit_faultCause (e : Engine) (ev : Event) : (e.emit ev).faultCause = e.faultCause := rfl
@[simp] theorem Engine.emit_trace (e : Engine) (ev : Event) : (e.emit ev).trace = e.trace ++ [ev] := rfl

/-! ### `Engine.toneStart` (R95) -/

@[simp] theorem Engine.toneStart_mode (e : Engine) (p : ToneParams) : (e.toneStart p).mode = e.mode := rfl
@[simp] theorem Engine.toneStart_finished (e : Engine) (p : ToneParams) : (e.toneStart p).finished = false := rfl
@[simp] theorem Engine.toneStart_resp (e : Engine) (p : ToneParams) : (e.toneStart p).resp = e.resp := rfl
@[simp] theorem Engine.toneStart_seqActive (e : Engine) (p : ToneParams) : (e.toneStart p).seqActive = e.seqActive := rfl
@[simp] theorem Engine.toneStart_seqBase (e : Engine) (p : ToneParams) : (e.toneStart p).seqBase = e.seqBase := rfl
@[simp] theorem Engine.toneStart_seqLen (e : Engine) (p : ToneParams) : (e.toneStart p).seqLen = e.seqLen := rfl
@[simp] theorem Engine.toneStart_seqOff (e : Engine) (p : ToneParams) : (e.toneStart p).seqOff = e.seqOff := rfl
@[simp] theorem Engine.toneStart_staccRest (e : Engine) (p : ToneParams) : (e.toneStart p).staccRest = e.staccRest := rfl
@[simp] theorem Engine.toneStart_octave (e : Engine) (p : ToneParams) : (e.toneStart p).octave = e.octave := rfl
@[simp] theorem Engine.toneStart_noteType (e : Engine) (p : ToneParams) : (e.toneStart p).noteType = e.noteType := rfl
@[simp] theorem Engine.toneStart_wholeMs (e : Engine) (p : ToneParams) : (e.toneStart p).wholeMs = e.wholeMs := rfl
@[simp] theorem Engine.toneStart_duration (e : Engine) (p : ToneParams) : (e.toneStart p).duration = e.duration := rfl
@[simp] theorem Engine.toneStart_volume (e : Engine) (p : ToneParams) : (e.toneStart p).volume = e.volume := rfl
@[simp] theorem Engine.toneStart_staccato (e : Engine) (p : ToneParams) : (e.toneStart p).staccato = e.staccato := rfl
@[simp] theorem Engine.toneStart_toneFreq (e : Engine) (p : ToneParams) : (e.toneStart p).toneFreq = p.freq := rfl
@[simp] theorem Engine.toneStart_tonePrescale (e : Engine) (p : ToneParams) : (e.toneStart p).tonePrescale = p.prescale := rfl
@[simp] theorem Engine.toneStart_toneTop (e : Engine) (p : ToneParams) : (e.toneStart p).toneTop = p.top := rfl
@[simp] theorem Engine.toneStart_toneDuty (e : Engine) (p : ToneParams) : (e.toneStart p).toneDuty = p.duty := rfl
@[simp] theorem Engine.toneStart_timeout (e : Engine) (p : ToneParams) : (e.toneStart p).timeout = p.timeout := rfl
@[simp] theorem Engine.toneStart_tickIE (e : Engine) (p : ToneParams) : (e.toneStart p).tickIE = true := rfl
@[simp] theorem Engine.toneStart_fault (e : Engine) (p : ToneParams) : (e.toneStart p).fault = e.fault := rfl
@[simp] theorem Engine.toneStart_faultCause (e : Engine) (p : ToneParams) : (e.toneStart p).faultCause = e.faultCause := rfl
@[simp] theorem Engine.toneStart_trace (e : Engine) (p : ToneParams) : (e.toneStart p).trace = e.trace ++ [.tone p] := rfl

/-! ### `Engine.silence` (R96) -/

@[simp] theorem Engine.silence_mode (e : Engine) (cfg : Config) : (e.silence cfg).mode = e.mode := rfl
@[simp] theorem Engine.silence_finished (e : Engine) (cfg : Config) : (e.silence cfg).finished = e.finished := rfl
@[simp] theorem Engine.silence_resp (e : Engine) (cfg : Config) : (e.silence cfg).resp = e.resp := rfl
@[simp] theorem Engine.silence_seqActive (e : Engine) (cfg : Config) : (e.silence cfg).seqActive = e.seqActive := rfl
@[simp] theorem Engine.silence_seqBase (e : Engine) (cfg : Config) : (e.silence cfg).seqBase = e.seqBase := rfl
@[simp] theorem Engine.silence_seqLen (e : Engine) (cfg : Config) : (e.silence cfg).seqLen = e.seqLen := rfl
@[simp] theorem Engine.silence_seqOff (e : Engine) (cfg : Config) : (e.silence cfg).seqOff = e.seqOff := rfl
@[simp] theorem Engine.silence_staccRest (e : Engine) (cfg : Config) : (e.silence cfg).staccRest = e.staccRest := rfl
@[simp] theorem Engine.silence_octave (e : Engine) (cfg : Config) : (e.silence cfg).octave = e.octave := rfl
@[simp] theorem Engine.silence_noteType (e : Engine) (cfg : Config) : (e.silence cfg).noteType = e.noteType := rfl
@[simp] theorem Engine.silence_wholeMs (e : Engine) (cfg : Config) : (e.silence cfg).wholeMs = e.wholeMs := rfl
@[simp] theorem Engine.silence_duration (e : Engine) (cfg : Config) : (e.silence cfg).duration = e.duration := rfl
@[simp] theorem Engine.silence_volume (e : Engine) (cfg : Config) : (e.silence cfg).volume = e.volume := rfl
@[simp] theorem Engine.silence_staccato (e : Engine) (cfg : Config) : (e.silence cfg).staccato = e.staccato := rfl
@[simp] theorem Engine.silence_toneFreq (e : Engine) (cfg : Config) : (e.silence cfg).toneFreq = 1000 := rfl
@[simp] theorem Engine.silence_tonePrescale (e : Engine) (cfg : Config) : (e.silence cfg).tonePrescale = .div1 := rfl
@[simp] theorem Engine.silence_toneTop (e : Engine) (cfg : Config) : (e.silence cfg).toneTop = baselineTop cfg := rfl
@[simp] theorem Engine.silence_toneDuty (e : Engine) (cfg : Config) : (e.silence cfg).toneDuty = 0 := rfl
@[simp] theorem Engine.silence_timeout (e : Engine) (cfg : Config) : (e.silence cfg).timeout = e.timeout := rfl
@[simp] theorem Engine.silence_tickIE (e : Engine) (cfg : Config) : (e.silence cfg).tickIE = false := rfl
@[simp] theorem Engine.silence_fault (e : Engine) (cfg : Config) : (e.silence cfg).fault = e.fault := rfl
@[simp] theorem Engine.silence_faultCause (e : Engine) (cfg : Config) : (e.silence cfg).faultCause = e.faultCause := rfl
@[simp] theorem Engine.silence_trace (e : Engine) (cfg : Config) : (e.silence cfg).trace = e.trace ++ [.silent] := rfl

/-! ### `Engine.endSession` (R127) -/

@[simp] theorem Engine.endSession_mode (e : Engine) : e.endSession.mode = e.mode := rfl
@[simp] theorem Engine.endSession_finished (e : Engine) : e.endSession.finished = e.finished := rfl
@[simp] theorem Engine.endSession_resp (e : Engine) : e.endSession.resp = e.resp := rfl
@[simp] theorem Engine.endSession_seqActive (e : Engine) : e.endSession.seqActive = false := rfl
@[simp] theorem Engine.endSession_seqBase (e : Engine) : e.endSession.seqBase = e.seqBase := rfl
@[simp] theorem Engine.endSession_seqLen (e : Engine) : e.endSession.seqLen = e.seqLen := rfl
@[simp] theorem Engine.endSession_seqOff (e : Engine) : e.endSession.seqOff = e.seqOff := rfl
@[simp] theorem Engine.endSession_staccRest (e : Engine) : e.endSession.staccRest = 0 := rfl
@[simp] theorem Engine.endSession_octave (e : Engine) : e.endSession.octave = e.octave := rfl
@[simp] theorem Engine.endSession_noteType (e : Engine) : e.endSession.noteType = e.noteType := rfl
@[simp] theorem Engine.endSession_wholeMs (e : Engine) : e.endSession.wholeMs = e.wholeMs := rfl
@[simp] theorem Engine.endSession_duration (e : Engine) : e.endSession.duration = e.duration := rfl
@[simp] theorem Engine.endSession_volume (e : Engine) : e.endSession.volume = e.volume := rfl
@[simp] theorem Engine.endSession_staccato (e : Engine) : e.endSession.staccato = e.staccato := rfl
@[simp] theorem Engine.endSession_toneFreq (e : Engine) : e.endSession.toneFreq = e.toneFreq := rfl
@[simp] theorem Engine.endSession_tonePrescale (e : Engine) : e.endSession.tonePrescale = e.tonePrescale := rfl
@[simp] theorem Engine.endSession_toneTop (e : Engine) : e.endSession.toneTop = e.toneTop := rfl
@[simp] theorem Engine.endSession_toneDuty (e : Engine) : e.endSession.toneDuty = e.toneDuty := rfl
@[simp] theorem Engine.endSession_timeout (e : Engine) : e.endSession.timeout = e.timeout := rfl
@[simp] theorem Engine.endSession_tickIE (e : Engine) : e.endSession.tickIE = e.tickIE := rfl
@[simp] theorem Engine.endSession_fault (e : Engine) : e.endSession.fault = e.fault := rfl
@[simp] theorem Engine.endSession_faultCause (e : Engine) : e.endSession.faultCause = e.faultCause := rfl
@[simp] theorem Engine.endSession_trace (e : Engine) : e.endSession.trace = e.trace := rfl

/-! ### `Engine.respond` (R131) -/

@[simp] theorem Engine.respond_mode (e : Engine) (answer : Bool) : (e.respond answer).mode = e.mode := rfl
@[simp] theorem Engine.respond_finished (e : Engine) (answer : Bool) : (e.respond answer).finished = e.finished := rfl
@[simp] theorem Engine.respond_resp (e : Engine) (answer : Bool) : (e.respond answer).resp = answer := rfl
@[simp] theorem Engine.respond_seqActive (e : Engine) (answer : Bool) : (e.respond answer).seqActive = e.seqActive := rfl
@[simp] theorem Engine.respond_seqBase (e : Engine) (answer : Bool) : (e.respond answer).seqBase = e.seqBase := rfl
@[simp] theorem Engine.respond_seqLen (e : Engine) (answer : Bool) : (e.respond answer).seqLen = e.seqLen := rfl
@[simp] theorem Engine.respond_seqOff (e : Engine) (answer : Bool) : (e.respond answer).seqOff = e.seqOff := rfl
@[simp] theorem Engine.respond_staccRest (e : Engine) (answer : Bool) : (e.respond answer).staccRest = e.staccRest := rfl
@[simp] theorem Engine.respond_octave (e : Engine) (answer : Bool) : (e.respond answer).octave = e.octave := rfl
@[simp] theorem Engine.respond_noteType (e : Engine) (answer : Bool) : (e.respond answer).noteType = e.noteType := rfl
@[simp] theorem Engine.respond_wholeMs (e : Engine) (answer : Bool) : (e.respond answer).wholeMs = e.wholeMs := rfl
@[simp] theorem Engine.respond_duration (e : Engine) (answer : Bool) : (e.respond answer).duration = e.duration := rfl
@[simp] theorem Engine.respond_volume (e : Engine) (answer : Bool) : (e.respond answer).volume = e.volume := rfl
@[simp] theorem Engine.respond_staccato (e : Engine) (answer : Bool) : (e.respond answer).staccato = e.staccato := rfl
@[simp] theorem Engine.respond_toneFreq (e : Engine) (answer : Bool) : (e.respond answer).toneFreq = e.toneFreq := rfl
@[simp] theorem Engine.respond_tonePrescale (e : Engine) (answer : Bool) : (e.respond answer).tonePrescale = e.tonePrescale := rfl
@[simp] theorem Engine.respond_toneTop (e : Engine) (answer : Bool) : (e.respond answer).toneTop = e.toneTop := rfl
@[simp] theorem Engine.respond_toneDuty (e : Engine) (answer : Bool) : (e.respond answer).toneDuty = e.toneDuty := rfl
@[simp] theorem Engine.respond_timeout (e : Engine) (answer : Bool) : (e.respond answer).timeout = e.timeout := rfl
@[simp] theorem Engine.respond_tickIE (e : Engine) (answer : Bool) : (e.respond answer).tickIE = e.tickIE := rfl
@[simp] theorem Engine.respond_fault (e : Engine) (answer : Bool) : (e.respond answer).fault = e.fault := rfl
@[simp] theorem Engine.respond_faultCause (e : Engine) (answer : Bool) : (e.respond answer).faultCause = e.faultCause := rfl
@[simp] theorem Engine.respond_trace (e : Engine) (answer : Bool) : (e.respond answer).trace = e.trace ++ [.resp answer] := rfl

/-! ### `Engine.endSequence` (R119) -/

@[simp] theorem Engine.endSequence_mode (e : Engine) (cfg : Config) : (e.endSequence cfg).mode = e.mode := rfl
@[simp] theorem Engine.endSequence_finished (e : Engine) (cfg : Config) : (e.endSequence cfg).finished = true := rfl
@[simp] theorem Engine.endSequence_resp (e : Engine) (cfg : Config) : (e.endSequence cfg).resp = e.resp := rfl
@[simp] theorem Engine.endSequence_seqActive (e : Engine) (cfg : Config) : (e.endSequence cfg).seqActive = false := rfl
@[simp] theorem Engine.endSequence_seqBase (e : Engine) (cfg : Config) : (e.endSequence cfg).seqBase = e.seqBase := rfl
@[simp] theorem Engine.endSequence_seqLen (e : Engine) (cfg : Config) : (e.endSequence cfg).seqLen = e.seqLen := rfl
@[simp] theorem Engine.endSequence_seqOff (e : Engine) (cfg : Config) : (e.endSequence cfg).seqOff = e.seqOff := rfl
@[simp] theorem Engine.endSequence_staccRest (e : Engine) (cfg : Config) : (e.endSequence cfg).staccRest = e.staccRest := rfl
@[simp] theorem Engine.endSequence_octave (e : Engine) (cfg : Config) : (e.endSequence cfg).octave = e.octave := rfl
@[simp] theorem Engine.endSequence_noteType (e : Engine) (cfg : Config) : (e.endSequence cfg).noteType = e.noteType := rfl
@[simp] theorem Engine.endSequence_wholeMs (e : Engine) (cfg : Config) : (e.endSequence cfg).wholeMs = e.wholeMs := rfl
@[simp] theorem Engine.endSequence_duration (e : Engine) (cfg : Config) : (e.endSequence cfg).duration = e.duration := rfl
@[simp] theorem Engine.endSequence_volume (e : Engine) (cfg : Config) : (e.endSequence cfg).volume = e.volume := rfl
@[simp] theorem Engine.endSequence_staccato (e : Engine) (cfg : Config) : (e.endSequence cfg).staccato = e.staccato := rfl
@[simp] theorem Engine.endSequence_toneFreq (e : Engine) (cfg : Config) : (e.endSequence cfg).toneFreq = 1000 := rfl
@[simp] theorem Engine.endSequence_tonePrescale (e : Engine) (cfg : Config) : (e.endSequence cfg).tonePrescale = .div1 := rfl
@[simp] theorem Engine.endSequence_toneTop (e : Engine) (cfg : Config) : (e.endSequence cfg).toneTop = baselineTop cfg := rfl
@[simp] theorem Engine.endSequence_toneDuty (e : Engine) (cfg : Config) : (e.endSequence cfg).toneDuty = 0 := rfl
@[simp] theorem Engine.endSequence_timeout (e : Engine) (cfg : Config) : (e.endSequence cfg).timeout = e.timeout := rfl
@[simp] theorem Engine.endSequence_tickIE (e : Engine) (cfg : Config) : (e.endSequence cfg).tickIE = false := rfl
@[simp] theorem Engine.endSequence_fault (e : Engine) (cfg : Config) : (e.endSequence cfg).fault = e.fault := rfl
@[simp] theorem Engine.endSequence_faultCause (e : Engine) (cfg : Config) : (e.endSequence cfg).faultCause = e.faultCause := rfl
@[simp] theorem Engine.endSequence_trace (e : Engine) (cfg : Config) : (e.endSequence cfg).trace = e.trace ++ [.silent] ++ [.endOfSequence] := rfl

/-! ### `Engine.recordFault` (R138) -/

@[simp] theorem Engine.recordFault_mode (e : Engine) (code : FaultCode) : (e.recordFault code).mode = e.mode := rfl
@[simp] theorem Engine.recordFault_finished (e : Engine) (code : FaultCode) : (e.recordFault code).finished = e.finished := rfl
@[simp] theorem Engine.recordFault_resp (e : Engine) (code : FaultCode) : (e.recordFault code).resp = e.resp := rfl
@[simp] theorem Engine.recordFault_seqActive (e : Engine) (code : FaultCode) : (e.recordFault code).seqActive = e.seqActive := rfl
@[simp] theorem Engine.recordFault_seqBase (e : Engine) (code : FaultCode) : (e.recordFault code).seqBase = e.seqBase := rfl
@[simp] theorem Engine.recordFault_seqLen (e : Engine) (code : FaultCode) : (e.recordFault code).seqLen = e.seqLen := rfl
@[simp] theorem Engine.recordFault_seqOff (e : Engine) (code : FaultCode) : (e.recordFault code).seqOff = e.seqOff := rfl
@[simp] theorem Engine.recordFault_staccRest (e : Engine) (code : FaultCode) : (e.recordFault code).staccRest = e.staccRest := rfl
@[simp] theorem Engine.recordFault_octave (e : Engine) (code : FaultCode) : (e.recordFault code).octave = e.octave := rfl
@[simp] theorem Engine.recordFault_noteType (e : Engine) (code : FaultCode) : (e.recordFault code).noteType = e.noteType := rfl
@[simp] theorem Engine.recordFault_wholeMs (e : Engine) (code : FaultCode) : (e.recordFault code).wholeMs = e.wholeMs := rfl
@[simp] theorem Engine.recordFault_duration (e : Engine) (code : FaultCode) : (e.recordFault code).duration = e.duration := rfl
@[simp] theorem Engine.recordFault_volume (e : Engine) (code : FaultCode) : (e.recordFault code).volume = e.volume := rfl
@[simp] theorem Engine.recordFault_staccato (e : Engine) (code : FaultCode) : (e.recordFault code).staccato = e.staccato := rfl
@[simp] theorem Engine.recordFault_toneFreq (e : Engine) (code : FaultCode) : (e.recordFault code).toneFreq = e.toneFreq := rfl
@[simp] theorem Engine.recordFault_tonePrescale (e : Engine) (code : FaultCode) : (e.recordFault code).tonePrescale = e.tonePrescale := rfl
@[simp] theorem Engine.recordFault_toneTop (e : Engine) (code : FaultCode) : (e.recordFault code).toneTop = e.toneTop := rfl
@[simp] theorem Engine.recordFault_toneDuty (e : Engine) (code : FaultCode) : (e.recordFault code).toneDuty = e.toneDuty := rfl
@[simp] theorem Engine.recordFault_timeout (e : Engine) (code : FaultCode) : (e.recordFault code).timeout = e.timeout := rfl
@[simp] theorem Engine.recordFault_tickIE (e : Engine) (code : FaultCode) : (e.recordFault code).tickIE = e.tickIE := rfl
@[simp] theorem Engine.recordFault_fault (e : Engine) (code : FaultCode) : (e.recordFault code).fault = e.fault ||| code.mask := rfl
@[simp] theorem Engine.recordFault_faultCause (e : Engine) (code : FaultCode) : (e.recordFault code).faultCause = (if e.faultCause = 0 then code.cause else e.faultCause) := rfl
@[simp] theorem Engine.recordFault_trace (e : Engine) (code : FaultCode) : (e.recordFault code).trace = e.trace := rfl

/-! ### `Engine.startScore` (R129) -/

@[simp] theorem Engine.startScore_mode (e : Engine) (base len : Half) : (e.startScore base len).mode = e.mode := rfl
@[simp] theorem Engine.startScore_finished (e : Engine) (base len : Half) : (e.startScore base len).finished = e.finished := rfl
@[simp] theorem Engine.startScore_resp (e : Engine) (base len : Half) : (e.startScore base len).resp = e.resp := rfl
@[simp] theorem Engine.startScore_seqActive (e : Engine) (base len : Half) : (e.startScore base len).seqActive = true := rfl
@[simp] theorem Engine.startScore_seqBase (e : Engine) (base len : Half) : (e.startScore base len).seqBase = base := rfl
@[simp] theorem Engine.startScore_seqLen (e : Engine) (base len : Half) : (e.startScore base len).seqLen = len := rfl
@[simp] theorem Engine.startScore_seqOff (e : Engine) (base len : Half) : (e.startScore base len).seqOff = 0 := rfl
@[simp] theorem Engine.startScore_staccRest (e : Engine) (base len : Half) : (e.startScore base len).staccRest = 0 := rfl
@[simp] theorem Engine.startScore_octave (e : Engine) (base len : Half) : (e.startScore base len).octave = e.octave := rfl
@[simp] theorem Engine.startScore_noteType (e : Engine) (base len : Half) : (e.startScore base len).noteType = e.noteType := rfl
@[simp] theorem Engine.startScore_wholeMs (e : Engine) (base len : Half) : (e.startScore base len).wholeMs = e.wholeMs := rfl
@[simp] theorem Engine.startScore_duration (e : Engine) (base len : Half) : (e.startScore base len).duration = e.duration := rfl
@[simp] theorem Engine.startScore_volume (e : Engine) (base len : Half) : (e.startScore base len).volume = e.volume := rfl
@[simp] theorem Engine.startScore_staccato (e : Engine) (base len : Half) : (e.startScore base len).staccato = e.staccato := rfl
@[simp] theorem Engine.startScore_toneFreq (e : Engine) (base len : Half) : (e.startScore base len).toneFreq = e.toneFreq := rfl
@[simp] theorem Engine.startScore_tonePrescale (e : Engine) (base len : Half) : (e.startScore base len).tonePrescale = e.tonePrescale := rfl
@[simp] theorem Engine.startScore_toneTop (e : Engine) (base len : Half) : (e.startScore base len).toneTop = e.toneTop := rfl
@[simp] theorem Engine.startScore_toneDuty (e : Engine) (base len : Half) : (e.startScore base len).toneDuty = e.toneDuty := rfl
@[simp] theorem Engine.startScore_timeout (e : Engine) (base len : Half) : (e.startScore base len).timeout = e.timeout := rfl
@[simp] theorem Engine.startScore_tickIE (e : Engine) (base len : Half) : (e.startScore base len).tickIE = e.tickIE := rfl
@[simp] theorem Engine.startScore_fault (e : Engine) (base len : Half) : (e.startScore base len).fault = e.fault := rfl
@[simp] theorem Engine.startScore_faultCause (e : Engine) (base len : Half) : (e.startScore base len).faultCause = e.faultCause := rfl
@[simp] theorem Engine.startScore_trace (e : Engine) (base len : Half) : (e.startScore base len).trace = e.trace := rfl

/-! ### `Engine.setMode` (R130) -/

@[simp] theorem Engine.setMode_mode (e : Engine) (mode : Mode) : (e.setMode mode).mode = mode := rfl
@[simp] theorem Engine.setMode_finished (e : Engine) (mode : Mode) : (e.setMode mode).finished = e.finished := rfl
@[simp] theorem Engine.setMode_resp (e : Engine) (mode : Mode) : (e.setMode mode).resp = e.resp := rfl
@[simp] theorem Engine.setMode_seqActive (e : Engine) (mode : Mode) : (e.setMode mode).seqActive = e.seqActive := rfl
@[simp] theorem Engine.setMode_seqBase (e : Engine) (mode : Mode) : (e.setMode mode).seqBase = e.seqBase := rfl
@[simp] theorem Engine.setMode_seqLen (e : Engine) (mode : Mode) : (e.setMode mode).seqLen = e.seqLen := rfl
@[simp] theorem Engine.setMode_seqOff (e : Engine) (mode : Mode) : (e.setMode mode).seqOff = e.seqOff := rfl
@[simp] theorem Engine.setMode_staccRest (e : Engine) (mode : Mode) : (e.setMode mode).staccRest = e.staccRest := rfl
@[simp] theorem Engine.setMode_octave (e : Engine) (mode : Mode) : (e.setMode mode).octave = e.octave := rfl
@[simp] theorem Engine.setMode_noteType (e : Engine) (mode : Mode) : (e.setMode mode).noteType = e.noteType := rfl
@[simp] theorem Engine.setMode_wholeMs (e : Engine) (mode : Mode) : (e.setMode mode).wholeMs = e.wholeMs := rfl
@[simp] theorem Engine.setMode_duration (e : Engine) (mode : Mode) : (e.setMode mode).duration = e.duration := rfl
@[simp] theorem Engine.setMode_volume (e : Engine) (mode : Mode) : (e.setMode mode).volume = e.volume := rfl
@[simp] theorem Engine.setMode_staccato (e : Engine) (mode : Mode) : (e.setMode mode).staccato = e.staccato := rfl
@[simp] theorem Engine.setMode_toneFreq (e : Engine) (mode : Mode) : (e.setMode mode).toneFreq = e.toneFreq := rfl
@[simp] theorem Engine.setMode_tonePrescale (e : Engine) (mode : Mode) : (e.setMode mode).tonePrescale = e.tonePrescale := rfl
@[simp] theorem Engine.setMode_toneTop (e : Engine) (mode : Mode) : (e.setMode mode).toneTop = e.toneTop := rfl
@[simp] theorem Engine.setMode_toneDuty (e : Engine) (mode : Mode) : (e.setMode mode).toneDuty = e.toneDuty := rfl
@[simp] theorem Engine.setMode_timeout (e : Engine) (mode : Mode) : (e.setMode mode).timeout = e.timeout := rfl
@[simp] theorem Engine.setMode_tickIE (e : Engine) (mode : Mode) : (e.setMode mode).tickIE = e.tickIE := rfl
@[simp] theorem Engine.setMode_fault (e : Engine) (mode : Mode) : (e.setMode mode).fault = e.fault := rfl
@[simp] theorem Engine.setMode_faultCause (e : Engine) (mode : Mode) : (e.setMode mode).faultCause = e.faultCause := rfl
@[simp] theorem Engine.setMode_trace (e : Engine) (mode : Mode) : (e.setMode mode).trace = e.trace := rfl

/-! ### `Engine.stop` (R133) -/

@[simp] theorem Engine.stop_mode (e : Engine) (cfg : Config) : (e.stop cfg).mode = e.mode := rfl
@[simp] theorem Engine.stop_finished (e : Engine) (cfg : Config) : (e.stop cfg).finished = true := rfl
@[simp] theorem Engine.stop_resp (e : Engine) (cfg : Config) : (e.stop cfg).resp = e.resp := rfl
@[simp] theorem Engine.stop_seqActive (e : Engine) (cfg : Config) : (e.stop cfg).seqActive = false := rfl
@[simp] theorem Engine.stop_seqBase (e : Engine) (cfg : Config) : (e.stop cfg).seqBase = e.seqBase := rfl
@[simp] theorem Engine.stop_seqLen (e : Engine) (cfg : Config) : (e.stop cfg).seqLen = e.seqLen := rfl
@[simp] theorem Engine.stop_seqOff (e : Engine) (cfg : Config) : (e.stop cfg).seqOff = e.seqOff := rfl
@[simp] theorem Engine.stop_staccRest (e : Engine) (cfg : Config) : (e.stop cfg).staccRest = 0 := rfl
@[simp] theorem Engine.stop_octave (e : Engine) (cfg : Config) : (e.stop cfg).octave = e.octave := rfl
@[simp] theorem Engine.stop_noteType (e : Engine) (cfg : Config) : (e.stop cfg).noteType = e.noteType := rfl
@[simp] theorem Engine.stop_wholeMs (e : Engine) (cfg : Config) : (e.stop cfg).wholeMs = e.wholeMs := rfl
@[simp] theorem Engine.stop_duration (e : Engine) (cfg : Config) : (e.stop cfg).duration = e.duration := rfl
@[simp] theorem Engine.stop_volume (e : Engine) (cfg : Config) : (e.stop cfg).volume = e.volume := rfl
@[simp] theorem Engine.stop_staccato (e : Engine) (cfg : Config) : (e.stop cfg).staccato = e.staccato := rfl
@[simp] theorem Engine.stop_toneFreq (e : Engine) (cfg : Config) : (e.stop cfg).toneFreq = 1000 := rfl
@[simp] theorem Engine.stop_tonePrescale (e : Engine) (cfg : Config) : (e.stop cfg).tonePrescale = .div1 := rfl
@[simp] theorem Engine.stop_toneTop (e : Engine) (cfg : Config) : (e.stop cfg).toneTop = baselineTop cfg := rfl
@[simp] theorem Engine.stop_toneDuty (e : Engine) (cfg : Config) : (e.stop cfg).toneDuty = 0 := rfl
@[simp] theorem Engine.stop_timeout (e : Engine) (cfg : Config) : (e.stop cfg).timeout = e.timeout := rfl
@[simp] theorem Engine.stop_tickIE (e : Engine) (cfg : Config) : (e.stop cfg).tickIE = false := rfl
@[simp] theorem Engine.stop_fault (e : Engine) (cfg : Config) : (e.stop cfg).fault = e.fault := rfl
@[simp] theorem Engine.stop_faultCause (e : Engine) (cfg : Config) : (e.stop cfg).faultCause = e.faultCause := rfl
@[simp] theorem Engine.stop_trace (e : Engine) (cfg : Config) : (e.stop cfg).trace = e.trace ++ [.silent] := rfl

/-! ### `Engine.setLegato` (R117) -/

@[simp] theorem Engine.setLegato_mode (e : Engine) : e.setLegato.mode = e.mode := rfl
@[simp] theorem Engine.setLegato_finished (e : Engine) : e.setLegato.finished = e.finished := rfl
@[simp] theorem Engine.setLegato_resp (e : Engine) : e.setLegato.resp = e.resp := rfl
@[simp] theorem Engine.setLegato_seqActive (e : Engine) : e.setLegato.seqActive = e.seqActive := rfl
@[simp] theorem Engine.setLegato_seqBase (e : Engine) : e.setLegato.seqBase = e.seqBase := rfl
@[simp] theorem Engine.setLegato_seqLen (e : Engine) : e.setLegato.seqLen = e.seqLen := rfl
@[simp] theorem Engine.setLegato_seqOff (e : Engine) : e.setLegato.seqOff = e.seqOff := rfl
@[simp] theorem Engine.setLegato_staccRest (e : Engine) : e.setLegato.staccRest = e.staccRest := rfl
@[simp] theorem Engine.setLegato_octave (e : Engine) : e.setLegato.octave = e.octave := rfl
@[simp] theorem Engine.setLegato_noteType (e : Engine) : e.setLegato.noteType = e.noteType := rfl
@[simp] theorem Engine.setLegato_wholeMs (e : Engine) : e.setLegato.wholeMs = e.wholeMs := rfl
@[simp] theorem Engine.setLegato_duration (e : Engine) : e.setLegato.duration = e.duration := rfl
@[simp] theorem Engine.setLegato_volume (e : Engine) : e.setLegato.volume = e.volume := rfl
@[simp] theorem Engine.setLegato_staccato (e : Engine) : e.setLegato.staccato = false := rfl
@[simp] theorem Engine.setLegato_toneFreq (e : Engine) : e.setLegato.toneFreq = e.toneFreq := rfl
@[simp] theorem Engine.setLegato_tonePrescale (e : Engine) : e.setLegato.tonePrescale = e.tonePrescale := rfl
@[simp] theorem Engine.setLegato_toneTop (e : Engine) : e.setLegato.toneTop = e.toneTop := rfl
@[simp] theorem Engine.setLegato_toneDuty (e : Engine) : e.setLegato.toneDuty = e.toneDuty := rfl
@[simp] theorem Engine.setLegato_timeout (e : Engine) : e.setLegato.timeout = e.timeout := rfl
@[simp] theorem Engine.setLegato_tickIE (e : Engine) : e.setLegato.tickIE = e.tickIE := rfl
@[simp] theorem Engine.setLegato_fault (e : Engine) : e.setLegato.fault = e.fault := rfl
@[simp] theorem Engine.setLegato_faultCause (e : Engine) : e.setLegato.faultCause = e.faultCause := rfl
@[simp] theorem Engine.setLegato_trace (e : Engine) : e.setLegato.trace = e.trace := rfl

/-! ### `Engine.setStaccato` (R117) -/

@[simp] theorem Engine.setStaccato_mode (e : Engine) : e.setStaccato.mode = e.mode := rfl
@[simp] theorem Engine.setStaccato_finished (e : Engine) : e.setStaccato.finished = e.finished := rfl
@[simp] theorem Engine.setStaccato_resp (e : Engine) : e.setStaccato.resp = e.resp := rfl
@[simp] theorem Engine.setStaccato_seqActive (e : Engine) : e.setStaccato.seqActive = e.seqActive := rfl
@[simp] theorem Engine.setStaccato_seqBase (e : Engine) : e.setStaccato.seqBase = e.seqBase := rfl
@[simp] theorem Engine.setStaccato_seqLen (e : Engine) : e.setStaccato.seqLen = e.seqLen := rfl
@[simp] theorem Engine.setStaccato_seqOff (e : Engine) : e.setStaccato.seqOff = e.seqOff := rfl
@[simp] theorem Engine.setStaccato_staccRest (e : Engine) : e.setStaccato.staccRest = 0 := rfl
@[simp] theorem Engine.setStaccato_octave (e : Engine) : e.setStaccato.octave = e.octave := rfl
@[simp] theorem Engine.setStaccato_noteType (e : Engine) : e.setStaccato.noteType = e.noteType := rfl
@[simp] theorem Engine.setStaccato_wholeMs (e : Engine) : e.setStaccato.wholeMs = e.wholeMs := rfl
@[simp] theorem Engine.setStaccato_duration (e : Engine) : e.setStaccato.duration = e.duration := rfl
@[simp] theorem Engine.setStaccato_volume (e : Engine) : e.setStaccato.volume = e.volume := rfl
@[simp] theorem Engine.setStaccato_staccato (e : Engine) : e.setStaccato.staccato = true := rfl
@[simp] theorem Engine.setStaccato_toneFreq (e : Engine) : e.setStaccato.toneFreq = e.toneFreq := rfl
@[simp] theorem Engine.setStaccato_tonePrescale (e : Engine) : e.setStaccato.tonePrescale = e.tonePrescale := rfl
@[simp] theorem Engine.setStaccato_toneTop (e : Engine) : e.setStaccato.toneTop = e.toneTop := rfl
@[simp] theorem Engine.setStaccato_toneDuty (e : Engine) : e.setStaccato.toneDuty = e.toneDuty := rfl
@[simp] theorem Engine.setStaccato_timeout (e : Engine) : e.setStaccato.timeout = e.timeout := rfl
@[simp] theorem Engine.setStaccato_tickIE (e : Engine) : e.setStaccato.tickIE = e.tickIE := rfl
@[simp] theorem Engine.setStaccato_fault (e : Engine) : e.setStaccato.fault = e.fault := rfl
@[simp] theorem Engine.setStaccato_faultCause (e : Engine) : e.setStaccato.faultCause = e.faultCause := rfl
@[simp] theorem Engine.setStaccato_trace (e : Engine) : e.setStaccato.trace = e.trace := rfl

/-! ### `Engine.resetMusic` (R118) -/

@[simp] theorem Engine.resetMusic_mode (e : Engine) : e.resetMusic.mode = e.mode := rfl
@[simp] theorem Engine.resetMusic_finished (e : Engine) : e.resetMusic.finished = e.finished := rfl
@[simp] theorem Engine.resetMusic_resp (e : Engine) : e.resetMusic.resp = e.resp := rfl
@[simp] theorem Engine.resetMusic_seqActive (e : Engine) : e.resetMusic.seqActive = e.seqActive := rfl
@[simp] theorem Engine.resetMusic_seqBase (e : Engine) : e.resetMusic.seqBase = e.seqBase := rfl
@[simp] theorem Engine.resetMusic_seqLen (e : Engine) : e.resetMusic.seqLen = e.seqLen := rfl
@[simp] theorem Engine.resetMusic_seqOff (e : Engine) : e.resetMusic.seqOff = e.seqOff := rfl
@[simp] theorem Engine.resetMusic_staccRest (e : Engine) : e.resetMusic.staccRest = e.staccRest := rfl
@[simp] theorem Engine.resetMusic_octave (e : Engine) : e.resetMusic.octave = 4 := rfl
@[simp] theorem Engine.resetMusic_noteType (e : Engine) : e.resetMusic.noteType = 4 := rfl
@[simp] theorem Engine.resetMusic_wholeMs (e : Engine) : e.resetMusic.wholeMs = 2000 := rfl
@[simp] theorem Engine.resetMusic_duration (e : Engine) : e.resetMusic.duration = 500 := rfl
@[simp] theorem Engine.resetMusic_volume (e : Engine) : e.resetMusic.volume = 15 := rfl
@[simp] theorem Engine.resetMusic_staccato (e : Engine) : e.resetMusic.staccato = false := rfl
@[simp] theorem Engine.resetMusic_toneFreq (e : Engine) : e.resetMusic.toneFreq = e.toneFreq := rfl
@[simp] theorem Engine.resetMusic_tonePrescale (e : Engine) : e.resetMusic.tonePrescale = e.tonePrescale := rfl
@[simp] theorem Engine.resetMusic_toneTop (e : Engine) : e.resetMusic.toneTop = e.toneTop := rfl
@[simp] theorem Engine.resetMusic_toneDuty (e : Engine) : e.resetMusic.toneDuty = e.toneDuty := rfl
@[simp] theorem Engine.resetMusic_timeout (e : Engine) : e.resetMusic.timeout = e.timeout := rfl
@[simp] theorem Engine.resetMusic_tickIE (e : Engine) : e.resetMusic.tickIE = e.tickIE := rfl
@[simp] theorem Engine.resetMusic_fault (e : Engine) : e.resetMusic.fault = e.fault := rfl
@[simp] theorem Engine.resetMusic_faultCause (e : Engine) : e.resetMusic.faultCause = e.faultCause := rfl
@[simp] theorem Engine.resetMusic_trace (e : Engine) : e.resetMusic.trace = e.trace := rfl

/-! ### `Engine.expire` (R142) -/

@[simp] theorem Engine.expire_mode (e : Engine) (cfg : Config) : (e.expire cfg).mode = e.mode := rfl
@[simp] theorem Engine.expire_finished (e : Engine) (cfg : Config) : (e.expire cfg).finished = true := rfl
@[simp] theorem Engine.expire_resp (e : Engine) (cfg : Config) : (e.expire cfg).resp = e.resp := rfl
@[simp] theorem Engine.expire_seqActive (e : Engine) (cfg : Config) : (e.expire cfg).seqActive = e.seqActive := rfl
@[simp] theorem Engine.expire_seqBase (e : Engine) (cfg : Config) : (e.expire cfg).seqBase = e.seqBase := rfl
@[simp] theorem Engine.expire_seqLen (e : Engine) (cfg : Config) : (e.expire cfg).seqLen = e.seqLen := rfl
@[simp] theorem Engine.expire_seqOff (e : Engine) (cfg : Config) : (e.expire cfg).seqOff = e.seqOff := rfl
@[simp] theorem Engine.expire_staccRest (e : Engine) (cfg : Config) : (e.expire cfg).staccRest = e.staccRest := rfl
@[simp] theorem Engine.expire_octave (e : Engine) (cfg : Config) : (e.expire cfg).octave = e.octave := rfl
@[simp] theorem Engine.expire_noteType (e : Engine) (cfg : Config) : (e.expire cfg).noteType = e.noteType := rfl
@[simp] theorem Engine.expire_wholeMs (e : Engine) (cfg : Config) : (e.expire cfg).wholeMs = e.wholeMs := rfl
@[simp] theorem Engine.expire_duration (e : Engine) (cfg : Config) : (e.expire cfg).duration = e.duration := rfl
@[simp] theorem Engine.expire_volume (e : Engine) (cfg : Config) : (e.expire cfg).volume = e.volume := rfl
@[simp] theorem Engine.expire_staccato (e : Engine) (cfg : Config) : (e.expire cfg).staccato = e.staccato := rfl
@[simp] theorem Engine.expire_toneFreq (e : Engine) (cfg : Config) : (e.expire cfg).toneFreq = 1000 := rfl
@[simp] theorem Engine.expire_tonePrescale (e : Engine) (cfg : Config) : (e.expire cfg).tonePrescale = .div1 := rfl
@[simp] theorem Engine.expire_toneTop (e : Engine) (cfg : Config) : (e.expire cfg).toneTop = baselineTop cfg := rfl
@[simp] theorem Engine.expire_toneDuty (e : Engine) (cfg : Config) : (e.expire cfg).toneDuty = 0 := rfl
@[simp] theorem Engine.expire_timeout (e : Engine) (cfg : Config) : (e.expire cfg).timeout = 0xFFFF := rfl
@[simp] theorem Engine.expire_tickIE (e : Engine) (cfg : Config) : (e.expire cfg).tickIE = false := rfl
@[simp] theorem Engine.expire_fault (e : Engine) (cfg : Config) : (e.expire cfg).fault = e.fault := rfl
@[simp] theorem Engine.expire_faultCause (e : Engine) (cfg : Config) : (e.expire cfg).faultCause = e.faultCause := rfl
@[simp] theorem Engine.expire_trace (e : Engine) (cfg : Config) : (e.expire cfg).trace = e.trace ++ [.silent] := rfl

/-! ### `Engine.countDown` (R143) -/

@[simp] theorem Engine.countDown_mode (e : Engine) : e.countDown.mode = e.mode := rfl
@[simp] theorem Engine.countDown_finished (e : Engine) : e.countDown.finished = e.finished := rfl
@[simp] theorem Engine.countDown_resp (e : Engine) : e.countDown.resp = e.resp := rfl
@[simp] theorem Engine.countDown_seqActive (e : Engine) : e.countDown.seqActive = e.seqActive := rfl
@[simp] theorem Engine.countDown_seqBase (e : Engine) : e.countDown.seqBase = e.seqBase := rfl
@[simp] theorem Engine.countDown_seqLen (e : Engine) : e.countDown.seqLen = e.seqLen := rfl
@[simp] theorem Engine.countDown_seqOff (e : Engine) : e.countDown.seqOff = e.seqOff := rfl
@[simp] theorem Engine.countDown_staccRest (e : Engine) : e.countDown.staccRest = e.staccRest := rfl
@[simp] theorem Engine.countDown_octave (e : Engine) : e.countDown.octave = e.octave := rfl
@[simp] theorem Engine.countDown_noteType (e : Engine) : e.countDown.noteType = e.noteType := rfl
@[simp] theorem Engine.countDown_wholeMs (e : Engine) : e.countDown.wholeMs = e.wholeMs := rfl
@[simp] theorem Engine.countDown_duration (e : Engine) : e.countDown.duration = e.duration := rfl
@[simp] theorem Engine.countDown_volume (e : Engine) : e.countDown.volume = e.volume := rfl
@[simp] theorem Engine.countDown_staccato (e : Engine) : e.countDown.staccato = e.staccato := rfl
@[simp] theorem Engine.countDown_toneFreq (e : Engine) : e.countDown.toneFreq = e.toneFreq := rfl
@[simp] theorem Engine.countDown_tonePrescale (e : Engine) : e.countDown.tonePrescale = e.tonePrescale := rfl
@[simp] theorem Engine.countDown_toneTop (e : Engine) : e.countDown.toneTop = e.toneTop := rfl
@[simp] theorem Engine.countDown_toneDuty (e : Engine) : e.countDown.toneDuty = e.toneDuty := rfl
@[simp] theorem Engine.countDown_timeout (e : Engine) : e.countDown.timeout = e.timeout - 1 := rfl
@[simp] theorem Engine.countDown_tickIE (e : Engine) : e.countDown.tickIE = e.tickIE := rfl
@[simp] theorem Engine.countDown_fault (e : Engine) : e.countDown.fault = e.fault := rfl
@[simp] theorem Engine.countDown_faultCause (e : Engine) : e.countDown.faultCause = e.faultCause := rfl
@[simp] theorem Engine.countDown_trace (e : Engine) : e.countDown.trace = e.trace := rfl

/-! ### `Engine.atScore` (the placing of one instruction) -/

@[simp] theorem Engine.atScore_mode (e : Engine) (len : Nat) : (e.atScore len).mode = e.mode := rfl
@[simp] theorem Engine.atScore_finished (e : Engine) (len : Nat) : (e.atScore len).finished = e.finished := rfl
@[simp] theorem Engine.atScore_resp (e : Engine) (len : Nat) : (e.atScore len).resp = e.resp := rfl
@[simp] theorem Engine.atScore_seqActive (e : Engine) (len : Nat) : (e.atScore len).seqActive = true := rfl
@[simp] theorem Engine.atScore_seqBase (e : Engine) (len : Nat) : (e.atScore len).seqBase = e.seqBase := rfl
@[simp] theorem Engine.atScore_seqLen (e : Engine) (len : Nat) : (e.atScore len).seqLen = BitVec.ofNat 16 len := rfl
@[simp] theorem Engine.atScore_seqOff (e : Engine) (len : Nat) : (e.atScore len).seqOff = 0 := rfl
@[simp] theorem Engine.atScore_staccRest (e : Engine) (len : Nat) : (e.atScore len).staccRest = e.staccRest := rfl
@[simp] theorem Engine.atScore_octave (e : Engine) (len : Nat) : (e.atScore len).octave = e.octave := rfl
@[simp] theorem Engine.atScore_noteType (e : Engine) (len : Nat) : (e.atScore len).noteType = e.noteType := rfl
@[simp] theorem Engine.atScore_wholeMs (e : Engine) (len : Nat) : (e.atScore len).wholeMs = e.wholeMs := rfl
@[simp] theorem Engine.atScore_duration (e : Engine) (len : Nat) : (e.atScore len).duration = e.duration := rfl
@[simp] theorem Engine.atScore_volume (e : Engine) (len : Nat) : (e.atScore len).volume = e.volume := rfl
@[simp] theorem Engine.atScore_staccato (e : Engine) (len : Nat) : (e.atScore len).staccato = e.staccato := rfl
@[simp] theorem Engine.atScore_toneFreq (e : Engine) (len : Nat) : (e.atScore len).toneFreq = e.toneFreq := rfl
@[simp] theorem Engine.atScore_tonePrescale (e : Engine) (len : Nat) : (e.atScore len).tonePrescale = e.tonePrescale := rfl
@[simp] theorem Engine.atScore_toneTop (e : Engine) (len : Nat) : (e.atScore len).toneTop = e.toneTop := rfl
@[simp] theorem Engine.atScore_toneDuty (e : Engine) (len : Nat) : (e.atScore len).toneDuty = e.toneDuty := rfl
@[simp] theorem Engine.atScore_timeout (e : Engine) (len : Nat) : (e.atScore len).timeout = e.timeout := rfl
@[simp] theorem Engine.atScore_tickIE (e : Engine) (len : Nat) : (e.atScore len).tickIE = e.tickIE := rfl
@[simp] theorem Engine.atScore_fault (e : Engine) (len : Nat) : (e.atScore len).fault = e.fault := rfl
@[simp] theorem Engine.atScore_faultCause (e : Engine) (len : Nat) : (e.atScore len).faultCause = e.faultCause := rfl
@[simp] theorem Engine.atScore_trace (e : Engine) (len : Nat) : (e.atScore len).trace = e.trace := rfl

/-! ### `Engine.withSplit` (R124) -/

@[simp] theorem Engine.withSplit_mode (e : Engine) (d : Nat) : (e.withSplit d).mode = e.mode := by
  unfold Engine.withSplit; split <;> rfl
@[simp] theorem Engine.withSplit_finished (e : Engine) (d : Nat) : (e.withSplit d).finished = e.finished := by
  unfold Engine.withSplit; split <;> rfl
@[simp] theorem Engine.withSplit_resp (e : Engine) (d : Nat) : (e.withSplit d).resp = e.resp := by
  unfold Engine.withSplit; split <;> rfl
@[simp] theorem Engine.withSplit_seqActive (e : Engine) (d : Nat) : (e.withSplit d).seqActive = e.seqActive := by
  unfold Engine.withSplit; split <;> rfl
@[simp] theorem Engine.withSplit_seqBase (e : Engine) (d : Nat) : (e.withSplit d).seqBase = e.seqBase := by
  unfold Engine.withSplit; split <;> rfl
@[simp] theorem Engine.withSplit_seqLen (e : Engine) (d : Nat) : (e.withSplit d).seqLen = e.seqLen := by
  unfold Engine.withSplit; split <;> rfl
@[simp] theorem Engine.withSplit_seqOff (e : Engine) (d : Nat) : (e.withSplit d).seqOff = e.seqOff := by
  unfold Engine.withSplit; split <;> rfl
@[simp] theorem Engine.withSplit_staccRest (e : Engine) (d : Nat) :
    (e.withSplit d).staccRest = if e.staccato then BitVec.ofNat 16 (d / 2) else e.staccRest := by
  unfold Engine.withSplit; split <;> rfl
@[simp] theorem Engine.withSplit_octave (e : Engine) (d : Nat) : (e.withSplit d).octave = e.octave := by
  unfold Engine.withSplit; split <;> rfl
@[simp] theorem Engine.withSplit_noteType (e : Engine) (d : Nat) : (e.withSplit d).noteType = e.noteType := by
  unfold Engine.withSplit; split <;> rfl
@[simp] theorem Engine.withSplit_wholeMs (e : Engine) (d : Nat) : (e.withSplit d).wholeMs = e.wholeMs := by
  unfold Engine.withSplit; split <;> rfl
@[simp] theorem Engine.withSplit_duration (e : Engine) (d : Nat) : (e.withSplit d).duration = e.duration := by
  unfold Engine.withSplit; split <;> rfl
@[simp] theorem Engine.withSplit_volume (e : Engine) (d : Nat) : (e.withSplit d).volume = e.volume := by
  unfold Engine.withSplit; split <;> rfl
@[simp] theorem Engine.withSplit_staccato (e : Engine) (d : Nat) : (e.withSplit d).staccato = e.staccato := by
  unfold Engine.withSplit; split <;> rfl
@[simp] theorem Engine.withSplit_toneFreq (e : Engine) (d : Nat) : (e.withSplit d).toneFreq = e.toneFreq := by
  unfold Engine.withSplit; split <;> rfl
@[simp] theorem Engine.withSplit_tonePrescale (e : Engine) (d : Nat) : (e.withSplit d).tonePrescale = e.tonePrescale := by
  unfold Engine.withSplit; split <;> rfl
@[simp] theorem Engine.withSplit_toneTop (e : Engine) (d : Nat) : (e.withSplit d).toneTop = e.toneTop := by
  unfold Engine.withSplit; split <;> rfl
@[simp] theorem Engine.withSplit_toneDuty (e : Engine) (d : Nat) : (e.withSplit d).toneDuty = e.toneDuty := by
  unfold Engine.withSplit; split <;> rfl
@[simp] theorem Engine.withSplit_timeout (e : Engine) (d : Nat) : (e.withSplit d).timeout = e.timeout := by
  unfold Engine.withSplit; split <;> rfl
@[simp] theorem Engine.withSplit_tickIE (e : Engine) (d : Nat) : (e.withSplit d).tickIE = e.tickIE := by
  unfold Engine.withSplit; split <;> rfl
@[simp] theorem Engine.withSplit_fault (e : Engine) (d : Nat) : (e.withSplit d).fault = e.fault := by
  unfold Engine.withSplit; split <;> rfl
@[simp] theorem Engine.withSplit_faultCause (e : Engine) (d : Nat) : (e.withSplit d).faultCause = e.faultCause := by
  unfold Engine.withSplit; split <;> rfl
@[simp] theorem Engine.withSplit_trace (e : Engine) (d : Nat) : (e.withSplit d).trace = e.trace := by
  unfold Engine.withSplit; split <;> rfl

/-! ### `State.mapEng`: the registers rewritten -/

@[simp] theorem State.mapEng_cfg (s : State) (f : Engine → Engine) : (s.mapEng f).cfg = s.cfg := rfl
@[simp] theorem State.mapEng_eng (s : State) (f : Engine → Engine) :
    (s.mapEng f).eng = f s.eng := rfl
@[simp] theorem State.mapEng_mem (s : State) (f : Engine → Engine) : (s.mapEng f).mem = s.mem := rfl
@[simp] theorem State.mapEng_inputs (s : State) (f : Engine → Engine) :
    (s.mapEng f).inputs = s.inputs := rfl
@[simp] theorem State.mapEng_pull (s : State) (f : Engine → Engine) :
    (s.mapEng f).pull = s.pull := rfl

/-! ### `State.mapPull`: the pull rewritten -/

@[simp] theorem State.mapPull_cfg (s : State) (f : PullState → PullState) :
    (s.mapPull f).cfg = s.cfg := rfl
@[simp] theorem State.mapPull_eng (s : State) (f : PullState → PullState) :
    (s.mapPull f).eng = s.eng := rfl
@[simp] theorem State.mapPull_mem (s : State) (f : PullState → PullState) :
    (s.mapPull f).mem = s.mem := rfl
@[simp] theorem State.mapPull_inputs (s : State) (f : PullState → PullState) :
    (s.mapPull f).inputs = s.inputs := rfl
@[simp] theorem State.mapPull_pull (s : State) (f : PullState → PullState) :
    (s.mapPull f).pull = s.pull.map f := rfl

/-! ### `State.atPlace`: another place -/

@[simp] theorem State.atPlace_cfg (s : State) (p : Place) : (s.atPlace p).cfg = s.cfg := rfl
@[simp] theorem State.atPlace_eng (s : State) (p : Place) : (s.atPlace p).eng = s.eng := rfl
@[simp] theorem State.atPlace_mem (s : State) (p : Place) : (s.atPlace p).mem = s.mem := rfl
@[simp] theorem State.atPlace_inputs (s : State) (p : Place) :
    (s.atPlace p).inputs = s.inputs := rfl
@[simp] theorem State.atPlace_pull (s : State) (p : Place) :
    (s.atPlace p).pull = s.pull.map fun c => { c with place := p } := rfl

/-! ### `State.withTmpOct`: R102 -/

@[simp] theorem State.withTmpOct_cfg (s : State) (oct : Int) : (s.withTmpOct oct).cfg = s.cfg := rfl
@[simp] theorem State.withTmpOct_eng (s : State) (oct : Int) : (s.withTmpOct oct).eng = s.eng := rfl
@[simp] theorem State.withTmpOct_mem (s : State) (oct : Int) : (s.withTmpOct oct).mem = s.mem := rfl
@[simp] theorem State.withTmpOct_inputs (s : State) (oct : Int) :
    (s.withTmpOct oct).inputs = s.inputs := rfl
@[simp] theorem State.withTmpOct_pull (s : State) (oct : Int) :
    (s.withTmpOct oct).pull = s.pull.map fun c => { c with tmpOct := oct } := rfl

/-! ### `State.closePull`: the pull over -/

@[simp] theorem State.closePull_cfg (s : State) : s.closePull.cfg = s.cfg := rfl
@[simp] theorem State.closePull_eng (s : State) : s.closePull.eng = s.eng := rfl
@[simp] theorem State.closePull_mem (s : State) : s.closePull.mem = s.mem := rfl
@[simp] theorem State.closePull_inputs (s : State) : s.closePull.inputs = s.inputs := rfl
@[simp] theorem State.closePull_pull (s : State) : s.closePull.pull = none := rfl

/-! ### `State.openPull`: R100 -/

@[simp] theorem State.openPull_cfg (s : State) (origin : Engine) :
    (s.openPull origin).cfg = s.cfg := rfl
@[simp] theorem State.openPull_eng (s : State) (origin : Engine) :
    (s.openPull origin).eng = s.eng := rfl
@[simp] theorem State.openPull_mem (s : State) (origin : Engine) :
    (s.openPull origin).mem = s.mem := rfl
@[simp] theorem State.openPull_inputs (s : State) (origin : Engine) :
    (s.openPull origin).inputs = s.inputs := rfl
@[simp] theorem State.openPull_pull (s : State) (origin : Engine) :
    (s.openPull origin).pull = some { entry := origin, tmpOct := s.eng.octave.toNat, place := .tokens } := rfl

/-! ### `State.opened`: the current pull -/

@[simp] theorem State.opened_cfg (s : State) : s.opened.cfg = s.cfg := rfl
@[simp] theorem State.opened_eng (s : State) : s.opened.eng = s.eng := rfl
@[simp] theorem State.opened_mem (s : State) : s.opened.mem = s.mem := rfl
@[simp] theorem State.opened_inputs (s : State) : s.opened.inputs = s.inputs := rfl
@[simp] theorem State.opened_pull (s : State) : s.opened.pull = some s.currentPull := rfl

/-! ### `State.raise`: R138 -/

@[simp] theorem State.raise_cfg (s : State) (code : FaultCode) : (s.raise code).cfg = s.cfg := rfl
@[simp] theorem State.raise_eng (s : State) (code : FaultCode) :
    (s.raise code).eng = s.origin.recordFault code := rfl
@[simp] theorem State.raise_mem (s : State) (code : FaultCode) : (s.raise code).mem = s.mem := rfl
@[simp] theorem State.raise_inputs (s : State) (code : FaultCode) :
    (s.raise code).inputs = s.inputs := rfl
@[simp] theorem State.raise_pull (s : State) (code : FaultCode) : (s.raise code).pull = none := rfl

/-! ### `State.restart`: R155 -/

@[simp] theorem State.restart_cfg (s : State) : s.restart.cfg = s.cfg := rfl
@[simp] theorem State.restart_eng (s : State) : s.restart.eng = Engine.reset s.cfg := rfl
@[simp] theorem State.restart_mem (s : State) : s.restart.mem = s.mem := rfl
@[simp] theorem State.restart_inputs (s : State) : s.restart.inputs = s.inputs := rfl
@[simp] theorem State.restart_pull (s : State) : s.restart.pull = none := rfl

/-! ### `State.withCommandWord`: a command word placed -/

@[simp] theorem State.withCommandWord_cfg (s : State) (w : CommandWord) :
    (s.withCommandWord w).cfg = s.cfg := rfl
@[simp] theorem State.withCommandWord_eng (s : State) (w : CommandWord) :
    (s.withCommandWord w).eng = s.eng := rfl
@[simp] theorem State.withCommandWord_mem (s : State) (w : CommandWord) :
    (s.withCommandWord w).mem = s.mem := rfl
@[simp] theorem State.withCommandWord_inputs (s : State) (w : CommandWord) :
    (s.withCommandWord w).inputs = .command w :: s.inputs := rfl
@[simp] theorem State.withCommandWord_pull (s : State) (w : CommandWord) :
    (s.withCommandWord w).pull = none := rfl

/-! ### `State.advance` (R54) -/

@[simp] theorem State.advance_cfg (s : State) : s.advance.cfg = s.cfg := rfl
@[simp] theorem State.advance_mem (s : State) : s.advance.mem = s.mem := rfl
@[simp] theorem State.advance_inputs (s : State) : s.advance.inputs = s.inputs := rfl
@[simp] theorem State.advance_pull (s : State) : s.advance.pull = s.pull := rfl
@[simp] theorem State.advance_mode (s : State) : s.advance.eng.mode = s.eng.mode := rfl
@[simp] theorem State.advance_finished (s : State) : s.advance.eng.finished = s.eng.finished := rfl
@[simp] theorem State.advance_resp (s : State) : s.advance.eng.resp = s.eng.resp := rfl
@[simp] theorem State.advance_seqActive (s : State) : s.advance.eng.seqActive = s.eng.seqActive := rfl
@[simp] theorem State.advance_seqBase (s : State) : s.advance.eng.seqBase = s.eng.seqBase := rfl
@[simp] theorem State.advance_seqLen (s : State) : s.advance.eng.seqLen = s.eng.seqLen := rfl
@[simp] theorem State.advance_seqOff (s : State) : s.advance.eng.seqOff =
    BitVec.ofNat 16 (min (s.eng.seqOff.toNat + 1) s.eng.seqLen.toNat) := rfl
@[simp] theorem State.advance_staccRest (s : State) : s.advance.eng.staccRest = s.eng.staccRest := rfl
@[simp] theorem State.advance_octave (s : State) : s.advance.eng.octave = s.eng.octave := rfl
@[simp] theorem State.advance_noteType (s : State) : s.advance.eng.noteType = s.eng.noteType := rfl
@[simp] theorem State.advance_wholeMs (s : State) : s.advance.eng.wholeMs = s.eng.wholeMs := rfl
@[simp] theorem State.advance_duration (s : State) : s.advance.eng.duration = s.eng.duration := rfl
@[simp] theorem State.advance_volume (s : State) : s.advance.eng.volume = s.eng.volume := rfl
@[simp] theorem State.advance_staccato (s : State) : s.advance.eng.staccato = s.eng.staccato := rfl
@[simp] theorem State.advance_toneFreq (s : State) : s.advance.eng.toneFreq = s.eng.toneFreq := rfl
@[simp] theorem State.advance_tonePrescale (s : State) : s.advance.eng.tonePrescale = s.eng.tonePrescale := rfl
@[simp] theorem State.advance_toneTop (s : State) : s.advance.eng.toneTop = s.eng.toneTop := rfl
@[simp] theorem State.advance_toneDuty (s : State) : s.advance.eng.toneDuty = s.eng.toneDuty := rfl
@[simp] theorem State.advance_timeout (s : State) : s.advance.eng.timeout = s.eng.timeout := rfl
@[simp] theorem State.advance_tickIE (s : State) : s.advance.eng.tickIE = s.eng.tickIE := rfl
@[simp] theorem State.advance_fault (s : State) : s.advance.eng.fault = s.eng.fault := rfl
@[simp] theorem State.advance_faultCause (s : State) : s.advance.eng.faultCause = s.eng.faultCause := rfl
@[simp] theorem State.advance_trace (s : State) : s.advance.eng.trace = s.eng.trace := rfl

/-! ### The pull a token runs in -/

theorem State.currentPull_of_some (s : State) (c : PullState) (h : s.pull = some c) :
    s.currentPull = c := by
  simp [State.currentPull, h]

@[simp] theorem State.currentPull_opened (s : State) : s.opened.currentPull = s.currentPull := rfl

@[simp] theorem State.currentPull_openPull (s : State) (origin : Engine) :
    (s.openPull origin).currentPull =
      { entry := origin, tmpOct := s.eng.octave.toNat, place := .tokens } := rfl

@[simp] theorem State.opened_openPull (s : State) (origin : Engine) :
    (s.openPull origin).opened = s.openPull origin := rfl

@[simp] theorem State.origin_of_none (s : State) (h : s.pull = none) : s.origin = s.eng := by
  simp [State.origin, h]

/-! ### Reset (R43) -/

@[simp] theorem Engine.reset_mode (cfg : Config) : (Engine.reset cfg).mode = .automatic := rfl
@[simp] theorem Engine.reset_finished (cfg : Config) : (Engine.reset cfg).finished = true := rfl
@[simp] theorem Engine.reset_resp (cfg : Config) : (Engine.reset cfg).resp = false := rfl
@[simp] theorem Engine.reset_seqActive (cfg : Config) : (Engine.reset cfg).seqActive = false := rfl
@[simp] theorem Engine.reset_seqBase (cfg : Config) : (Engine.reset cfg).seqBase = 0 := rfl
@[simp] theorem Engine.reset_seqLen (cfg : Config) : (Engine.reset cfg).seqLen = 0 := rfl
@[simp] theorem Engine.reset_seqOff (cfg : Config) : (Engine.reset cfg).seqOff = 0 := rfl
@[simp] theorem Engine.reset_staccRest (cfg : Config) : (Engine.reset cfg).staccRest = 0 := rfl
@[simp] theorem Engine.reset_octave (cfg : Config) : (Engine.reset cfg).octave = 4 := rfl
@[simp] theorem Engine.reset_noteType (cfg : Config) : (Engine.reset cfg).noteType = 4 := rfl
@[simp] theorem Engine.reset_wholeMs (cfg : Config) : (Engine.reset cfg).wholeMs = 2000 := rfl
@[simp] theorem Engine.reset_duration (cfg : Config) : (Engine.reset cfg).duration = 500 := rfl
@[simp] theorem Engine.reset_volume (cfg : Config) : (Engine.reset cfg).volume = 15 := rfl
@[simp] theorem Engine.reset_staccato (cfg : Config) : (Engine.reset cfg).staccato = false := rfl
@[simp] theorem Engine.reset_toneFreq (cfg : Config) : (Engine.reset cfg).toneFreq = 1000 := rfl
@[simp] theorem Engine.reset_tonePrescale (cfg : Config) : (Engine.reset cfg).tonePrescale = .div1 := rfl
@[simp] theorem Engine.reset_toneTop (cfg : Config) : (Engine.reset cfg).toneTop = baselineTop cfg := rfl
@[simp] theorem Engine.reset_toneDuty (cfg : Config) : (Engine.reset cfg).toneDuty = 0 := rfl
@[simp] theorem Engine.reset_timeout (cfg : Config) : (Engine.reset cfg).timeout = 0 := rfl
@[simp] theorem Engine.reset_tickIE (cfg : Config) : (Engine.reset cfg).tickIE = false := rfl
@[simp] theorem Engine.reset_fault (cfg : Config) : (Engine.reset cfg).fault = 0 := rfl
@[simp] theorem Engine.reset_faultCause (cfg : Config) : (Engine.reset cfg).faultCause = 0 := rfl
@[simp] theorem Engine.reset_trace (cfg : Config) : (Engine.reset cfg).trace = [] := rfl

end Sys2Proof.Machine
end

