-- ==== Sys2Proof/Laws/Memory.lean ====
section
/-! SUPPORT. The sequence memory: what a read gives after a write, and that every operation on it keeps
the canonical form. -/

namespace Sys2Proof.Machine

open Sys2Proof

@[simp] theorem Memory.read_nil (addr : Nat) : Memory.read [] addr = unlistedByte := rfl

@[simp] theorem Memory.read_cons (a : Nat) (b : Byte) (rest : Memory) (addr : Nat) :
    Memory.read ((a, b) :: rest) addr = if a = addr then b else Memory.read rest addr := rfl

@[simp] theorem Memory.wf_nil : Memory.wf [] = true := rfl

theorem Memory.wf_cons (a : Nat) (b : Byte) (rest : Memory) :
    Memory.wf ((a, b) :: rest) = true ↔
      a < 65536 ∧ b ≠ unlistedByte ∧ Memory.above rest a = true ∧ Memory.wf rest = true := by
  simp [Memory.wf, and_assoc]

theorem Memory.above_mono {m : Memory} {a c : Nat} (hca : c ≤ a) (h : Memory.above m a = true) :
    Memory.above m c = true := by
  cases m with
  | nil => rfl
  | cons x rest => simp [Memory.above] at h ⊢; omega

/-- An address below every listed one reads as an unlisted byte. -/
theorem Memory.read_of_above {m : Memory} {a : Nat} (hwf : m.wf = true)
    (h : m.above a = true) : m.read a = unlistedByte := by
  induction m with
  | nil => rfl
  | cons x rest ih =>
    obtain ⟨c, b⟩ := x
    obtain ⟨_, _, hab, hrest⟩ := (Memory.wf_cons c b rest).1 hwf
    have hac : a < c := by simpa [Memory.above] using h
    rw [Memory.read_cons, if_neg (by omega)]
    exact ih hrest (Memory.above_mono (by omega) hab)

theorem Memory.above_write {m : Memory} {a addr : Nat} {byte : Byte} (hwf : m.wf = true)
    (hm : m.above a = true) (ha : a < addr) : (m.write addr byte).above a = true := by
  cases m with
  | nil => unfold Memory.write; split <;> simp [Memory.above, ha]
  | cons x rest =>
    obtain ⟨c, b⟩ := x
    obtain ⟨_, _, hab, _⟩ := (Memory.wf_cons c b rest).1 hwf
    have hac : a < c := by simpa [Memory.above] using hm
    unfold Memory.write
    split
    · split <;> simp [Memory.above, hac, ha]
    · split
      · split
        · exact Memory.above_mono (by omega) hab
        · simp [Memory.above, ha]
      · simp [Memory.above, hac]

/-- Placing a byte keeps the canonical form. -/
theorem Memory.wf_write {m : Memory} {addr : Nat} (byte : Byte) (hwf : m.wf = true)
    (haddr : addr < 65536) : (m.write addr byte).wf = true := by
  induction m with
  | nil => unfold Memory.write; split <;> simp_all [Memory.wf, Memory.above]
  | cons x rest ih =>
    obtain ⟨c, b⟩ := x
    obtain ⟨hc, hb, hab, hrest⟩ := (Memory.wf_cons c b rest).1 hwf
    unfold Memory.write
    split
    · split
      · exact hwf
      · exact (Memory.wf_cons _ _ _).2 ⟨haddr, by assumption, by simpa [Memory.above], hwf⟩
    · split
      · split
        · exact hrest
        · exact (Memory.wf_cons _ _ _).2 ⟨haddr, by assumption, by subst_vars; exact hab, hrest⟩
      · exact (Memory.wf_cons _ _ _).2
          ⟨hc, hb, Memory.above_write hrest hab (by omega), ih hrest⟩

/-- A read after a write: the byte written there, what was there elsewhere. -/
theorem Memory.read_write {m : Memory} (addr : Nat) (byte : Byte) (k : Nat) (hwf : m.wf = true) :
    (m.write addr byte).read k = if k = addr then byte else m.read k := by
  induction m with
  | nil =>
    by_cases hk : addr = k
    · subst hk; unfold Memory.write; split <;> simp_all
    · rw [if_neg fun h => hk h.symm]; unfold Memory.write; split <;> simp [hk]
  | cons x rest ih =>
    obtain ⟨c, b⟩ := x
    obtain ⟨_, _, hab, hrest⟩ := (Memory.wf_cons c b rest).1 hwf
    unfold Memory.write
    split
    · rename_i hlt
      have hread : Memory.read ((c, b) :: rest) addr = unlistedByte :=
        Memory.read_of_above hwf (by simpa [Memory.above] using hlt)
      split
      · rename_i hb
        by_cases hk : k = addr
        · simp only [hk, if_true]; rw [hread, hb]
        · simp [hk]
      · by_cases hk : k = addr
        · simp [hk]
        · rw [Memory.read_cons, if_neg (fun h => hk h.symm), if_neg hk]
    · split
      · rename_i heq
        subst heq
        split
        · rename_i hb
          by_cases hk : k = addr
          · subst hk; rw [if_pos rfl, hb]; exact Memory.read_of_above hrest hab
          · rw [Memory.read_cons, if_neg hk, if_neg (fun h => hk h.symm)]
        · by_cases hk : addr = k
          · subst hk; simp
          · rw [Memory.read_cons, Memory.read_cons, if_neg hk, if_neg hk,
              if_neg fun h => hk h.symm]
      · rw [Memory.read_cons, Memory.read_cons, ih hrest]
        by_cases hck : c = k
        · subst hck; simp only [if_true]; rw [if_neg (by omega)]
        · simp [hck]

/-- Placing a list of bytes keeps the canonical form. -/
theorem Memory.wf_writeFrom {m : Memory} (addr : Half) (bytes : List Byte) (hwf : m.wf = true) :
    (m.writeFrom addr bytes).wf = true := by
  induction bytes generalizing m addr with
  | nil => exact hwf
  | cons b later ih => exact ih _ (Memory.wf_write b hwf addr.isLt)

/-- The memory after reset has the canonical form. -/
theorem State.resetWith_mem_wf (cfg : Config) : (State.resetWith cfg).mem.wf = true := rfl

/-- An address past the score reads the end sentinel (R52). -/
theorem State.byteAt_past (s : State) (o : Half) (h : s.eng.seqLen.toNat ≤ o.toNat) :
    s.byteAt o = 0x00 := by
  simp [State.byteAt, h]

/-- An offset within the score reads the sequence memory, wrapping at its top (R52). -/
theorem State.byteAt_within (s : State) (o : Half) (h : o.toNat < s.eng.seqLen.toNat) :
    s.byteAt o = s.mem.read (s.eng.seqBase + o).toNat := by
  simp [State.byteAt, Nat.not_le.2 h]

end Sys2Proof.Machine
end

