-- ==== Sys2Proof/Laws/PerInstr.lean ====
section
/-! SUPPORT. Facts about every instruction as a word, one lemma per constructor. Family `Shape`: an
H-format row is written as one command word, an S-format row as one or two score bytes (R65, R66, R71). -/

namespace Sys2Proof.Laws.Shape

open Sys2Proof

/-- The instruction is a row of the H-format (R67). -/
def isCommand (i : Instr) : Bool :=
  match i with
  | .playFreq _ _ _ => true
  | .playNote _ _ _ => true
  | .playSeq _ _ => true
  | .playMode _ => true
  | .playCheck => true
  | .isPlaying => true
  | .stop => true
  | .illegalCmd _ => true
  | .octaveUp => false
  | .octaveDown => false
  | .noteA => false
  | .noteB => false
  | .noteC => false
  | .noteD => false
  | .noteE => false
  | .noteF => false
  | .noteG => false
  | .rest => false
  | .setOctave => false
  | .setTempo => false
  | .setLength => false
  | .setVolume => false
  | .legato => false
  | .staccato _ => false
  | .resetMusic => false
  | .sharpPlus => false
  | .sharpHash => false
  | .flat => false
  | .digitLow _ => false
  | .digitHigh _ => false
  | .dot => false
  | .space => false
  | .terminator _ => false

/-- What the encoder writes for the instruction has the format of its row. -/
def Statement (i : Instr) : Prop :=
  match encode i with
  | .command _ => isCommand i = true
  | .score bytes => isCommand i = false ∧ 1 ≤ bytes.length ∧ bytes.length ≤ 2

theorem playFreq (freq dur : Half) (vol : Byte) :
    Statement (.playFreq freq dur vol) := rfl
theorem playNote (note : Byte) (dur : Half) (vol : Byte) :
    Statement (.playNote note dur vol) := rfl
theorem playSeq (base len : Half) :
    Statement (.playSeq base len) := rfl
theorem playMode (mode : Mode) :
    Statement (.playMode mode) := rfl
theorem playCheck : Statement .playCheck := rfl
theorem isPlaying : Statement .isPlaying := rfl
theorem stop : Statement .stop := rfl
theorem illegalCmd (word : CommandWord) :
    Statement (.illegalCmd word) := rfl
theorem octaveUp : Statement .octaveUp := ⟨rfl, by decide, by decide⟩
theorem octaveDown : Statement .octaveDown := ⟨rfl, by decide, by decide⟩
theorem noteA : Statement .noteA := ⟨rfl, by decide, by decide⟩
theorem noteB : Statement .noteB := ⟨rfl, by decide, by decide⟩
theorem noteC : Statement .noteC := ⟨rfl, by decide, by decide⟩
theorem noteD : Statement .noteD := ⟨rfl, by decide, by decide⟩
theorem noteE : Statement .noteE := ⟨rfl, by decide, by decide⟩
theorem noteF : Statement .noteF := ⟨rfl, by decide, by decide⟩
theorem noteG : Statement .noteG := ⟨rfl, by decide, by decide⟩
theorem rest : Statement .rest := ⟨rfl, by decide, by decide⟩
theorem setOctave : Statement .setOctave := ⟨rfl, by decide, by decide⟩
theorem setTempo : Statement .setTempo := ⟨rfl, by decide, by decide⟩
theorem setLength : Statement .setLength := ⟨rfl, by decide, by decide⟩
theorem setVolume : Statement .setVolume := ⟨rfl, by decide, by decide⟩
theorem legato : Statement .legato := ⟨rfl, by decide, by decide⟩
theorem staccato (second : Byte) : Statement (.staccato second) :=
  ⟨rfl, by simp, by simp⟩
theorem resetMusic : Statement .resetMusic := ⟨rfl, by decide, by decide⟩
theorem sharpPlus : Statement .sharpPlus := ⟨rfl, by decide, by decide⟩
theorem sharpHash : Statement .sharpHash := ⟨rfl, by decide, by decide⟩
theorem flat : Statement .flat := ⟨rfl, by decide, by decide⟩
theorem digitLow (value : BitVec 3) : Statement (.digitLow value) :=
  ⟨rfl, by simp, by simp⟩
theorem digitHigh (value : BitVec 1) : Statement (.digitHigh value) :=
  ⟨rfl, by simp, by simp⟩
theorem dot : Statement .dot := ⟨rfl, by decide, by decide⟩
theorem space : Statement .space := ⟨rfl, by decide, by decide⟩
theorem terminator (byte : Byte) : Statement (.terminator byte) :=
  ⟨rfl, by simp, by simp⟩

end Sys2Proof.Laws.Shape
end

