-- ==== Sys2Proof/Laws/Planner.lean ====
section
/-! SUPPORT. What the planner can answer: the range of the clamped frequency, the one fault, and the
parts of a plan. -/

namespace Sys2Proof.Machine

open Sys2Proof

theorem freqMult_cases (fw : Half) : freqMult fw = 1 ∨ freqMult fw = 10 := by
  unfold freqMult; split <;> simp

/-- A tenths word holds at most 32767 tenths (R88). -/
theorem freqValue_le_of_tenths (fw : Half) (h : freqMult fw = 10) : freqValue fw ≤ 32767 := by
  unfold freqMult at h
  split at h
  · rename_i hb
    have := (fw.extractLsb' 0 15).isLt
    simp only [freqValue, hb, if_true]
    omega
  · omega

theorem le_clampFreq (mult f : Nat) (h : mult = 1 ∨ mult = 10) : 40 * mult ≤ clampFreq mult f := by
  unfold clampFreq
  rcases h with rfl | rfl <;> simp only <;> split <;> split <;> omega

/-- The clamped frequency of a word: 40 Hz to 10 000 Hz, or 400 to 32767 tenths (R89). -/
theorem clampFreq_range (fw : Half) :
    (freqMult fw = 1 ∧ 40 ≤ clampFreq 1 (freqValue fw) ∧ clampFreq 1 (freqValue fw) ≤ 10000) ∨
    (freqMult fw = 10 ∧ 400 ≤ clampFreq 10 (freqValue fw) ∧
      clampFreq 10 (freqValue fw) ≤ 32767) := by
  rcases freqMult_cases fw with h | h
  · refine .inl ⟨h, le_clampFreq 1 _ (.inl rfl), ?_⟩
    unfold clampFreq
    simp only [true_and]
    split <;> split <;> omega
  · refine .inr ⟨h, le_clampFreq 10 _ (.inr rfl), ?_⟩
    have := freqValue_le_of_tenths fw h
    unfold clampFreq
    simp only
    split <;> split <;> omega

theorem clockRate_le (cfg : Config) (pre : Prescale) : clockRate cfg pre ≤ cfg.toneClkHz.val := by
  cases pre <;> simp only [clockRate]
  · exact le_refl _
  · omega

/-- The timeout either fits 16 bits or is `OVF_TIMEOUT` (R93), for a 16-bit duration. -/
theorem timeoutTicks_cases (fHz : Nat) (d : Half) :
    (∃ t, timeoutTicks fHz d.toNat = .ok t ∧ t ≤ 65535) ∨
      timeoutTicks fHz d.toNat = .error .ovfTimeout := by
  have hd := d.isLt
  unfold timeoutTicks
  split
  · exact .inl ⟨_, rfl, by omega⟩
  · split
    · exact .inr rfl
    · exact .inl ⟨_, rfl, by omega⟩

/-- Everything `Plan` can answer (R85 to R94): a plan made of its five parts, or `OVF_TIMEOUT`. -/
theorem plan_cases (cfg : Config) (fw d : Half) (v : Byte) :
    (∃ t, timeoutTicks (wholeHz (freqMult fw) (clampFreq (freqMult fw) (freqValue fw))) d.toNat = .ok t ∧
      t ≤ 65535 ∧
      plan cfg fw d v = .ok
        { freq := freqWord (freqMult fw) (clampFreq (freqMult fw) (freqValue fw))
          prescale := selectPrescale (freqMult fw) (clampFreq (freqMult fw) (freqValue fw))
          top := BitVec.ofNat 16 (timerTop
            (clockRate cfg (selectPrescale (freqMult fw) (clampFreq (freqMult fw) (freqValue fw))))
            (freqMult fw) (clampFreq (freqMult fw) (freqValue fw)))
          duty := BitVec.ofNat 16 (dutyValue (timerTop
            (clockRate cfg (selectPrescale (freqMult fw) (clampFreq (freqMult fw) (freqValue fw))))
            (freqMult fw) (clampFreq (freqMult fw) (freqValue fw))) v.toNat)
          timeout := BitVec.ofNat 16 t }) ∨
    plan cfg fw d v = .error .ovfTimeout := by
  rcases timeoutTicks_cases
    (wholeHz (freqMult fw) (clampFreq (freqMult fw) (freqValue fw))) d with ⟨t, ht, hle⟩ | h
  · exact .inl ⟨t, ht, hle, by simp [plan, ht]⟩
  · exact .inr (by simp [plan, h])

/-- The plan of a silent note (R99); it never faults (R93). -/
theorem planSilent_eq (cfg : Config) (d : Half) :
    planSilent cfg d = .ok
      { freq := 1000, prescale := .div1, top := baselineTop cfg, duty := 0, timeout := d } := by
  have hv : freqValue 1000#16 = 1000 := by decide
  have hm : freqMult 1000#16 = 1 := by decide
  have hd : dutyValue ((cfg.toneClkHz.val + 500) / 1000) 0 = 0 := by
    have := cfg.toneClkHz.property
    have h16 : 2 ^ (16 - min 0 15) = 65536 := by decide
    rw [dutyValue, Nat.shiftRight_eq_div_pow, h16]
    omega
  simp [planSilent, plan, hv, hm, clampFreq, selectPrescale, clockRate, timerTop, wholeHz,
    timeoutTicks, freqWord, baselineTop, hd]

@[simp] theorem planNote_silent (cfg : Config) (d : Half) (v : Byte) :
    planNote cfg .silent d v = planSilent cfg d := rfl

/-- Everything `PlanNote` can answer: a plan, or `OVF_TIMEOUT` (R99). -/
theorem planNote_cases (cfg : Config) (pitch : Pitch) (d : Half) (v : Byte) :
    (∃ p, planNote cfg pitch d v = .ok p) ∨ planNote cfg pitch d v = .error .ovfTimeout := by
  cases pitch with
  | silent => exact .inl ⟨_, planSilent_eq cfg d⟩
  | note n =>
    unfold planNote
    simp only
    split
    · exact .inl ⟨_, planSilent_eq cfg d⟩
    · rcases plan_cases cfg (noteFreq cfg (clampNote n)) d (BitVec.ofNat 8 (min v.toNat 15)) with
        ⟨_, _, _, h⟩ | h
      · exact .inl ⟨_, h⟩
      · exact .inr h

/-- The clamped note index is a playable one (R86). -/
theorem clampNote_range (n : Int) : 16 ≤ clampNote n ∧ clampNote n ≤ 111 := by
  unfold clampNote lowNote highNote
  omega

end Sys2Proof.Machine
end

