-- ==== Sys2Proof/Laws/Score.lean ====
section
/-! SUPPORT. What the cursor operations can do: each read of the score moves the cursor forward, never
past the score, and changes nothing else. -/

namespace Sys2Proof.Machine

open Sys2Proof

/-- `t` is `s` with the cursor moved forward within the score. -/
structure CursorMoved (s t : State) : Prop where
  same : t = { s with eng := { s.eng with seqOff := t.eng.seqOff } }
  within : s.eng.seqOff.toNat ≤ s.eng.seqLen.toNat →
    s.eng.seqOff.toNat ≤ t.eng.seqOff.toNat ∧ t.eng.seqOff.toNat ≤ s.eng.seqLen.toNat

theorem CursorMoved.refl (s : State) : CursorMoved s s := ⟨rfl, fun h => ⟨le_refl _, h⟩⟩

theorem CursorMoved.seqLen {s t : State} (h : CursorMoved s t) : t.eng.seqLen = s.eng.seqLen := by
  rw [h.same]

theorem CursorMoved.cfg {s t : State} (h : CursorMoved s t) : t.cfg = s.cfg := by rw [h.same]

theorem CursorMoved.mem {s t : State} (h : CursorMoved s t) : t.mem = s.mem := by rw [h.same]

theorem CursorMoved.inputs {s t : State} (h : CursorMoved s t) : t.inputs = s.inputs := by
  rw [h.same]

theorem CursorMoved.pull {s t : State} (h : CursorMoved s t) : t.pull = s.pull := by rw [h.same]

theorem CursorMoved.eng {s t : State} (h : CursorMoved s t) :
    t.eng = { s.eng with seqOff := t.eng.seqOff } := by
  conv => lhs; rw [h.same]

theorem CursorMoved.trans {s t u : State} (h : CursorMoved s t) (k : CursorMoved t u) :
    CursorMoved s u where
  same := by
    have hk := k.same
    rw [h.same] at hk
    exact hk
  within := fun hs => by
    obtain ⟨h1, h2⟩ := h.within hs
    rw [← h.seqLen] at h2
    obtain ⟨k1, k2⟩ := k.within h2
    rw [h.seqLen] at k2
    exact ⟨le_trans h1 k1, k2⟩

theorem advance_moves (s : State) : CursorMoved s s.advance where
  same := rfl
  within := fun h => by
    have hl := s.eng.seqLen.isLt
    simp only [State.advance_seqOff, BitVec.toNat_ofNat]
    have : min (s.eng.seqOff.toNat + 1) s.eng.seqLen.toNat % 2 ^ 16 =
        min (s.eng.seqOff.toNat + 1) s.eng.seqLen.toNat := Nat.mod_eq_of_lt (by omega)
    omega

theorem skipSpacesLoop_moves (k : Nat) (s : State) : CursorMoved s (skipSpacesLoop k s) := by
  induction k generalizing s with
  | zero => exact .refl s
  | succ k ih =>
    unfold skipSpacesLoop
    split
    · exact (advance_moves s).trans (ih _)
    · exact .refl s

theorem skipSpaces_moves (s : State) : CursorMoved s s.skipSpaces := skipSpacesLoop_moves _ s

theorem fetchAdvance_moves (s : State) : CursorMoved s s.skipSpaces.advance :=
  (skipSpaces_moves s).trans (advance_moves _)

/-- Before the end of the score `Advance` moves the cursor by exactly one (R54). -/
theorem advance_seqOff_of_lt (s : State) (h : s.eng.seqOff.toNat < s.eng.seqLen.toNat) :
    s.advance.eng.seqOff.toNat = s.eng.seqOff.toNat + 1 := by
  have hl := s.eng.seqLen.isLt
  simp only [State.advance_seqOff, BitVec.toNat_ofNat]
  rw [Nat.min_eq_left (by omega), Nat.mod_eq_of_lt (by omega)]

/-- `Number()` reads digits and moves the cursor; nothing else (R120). -/
theorem numberLoop_moves (k n : Nat) (s : State) (m : Nat) (t : State)
    (h : numberLoop k n s = .ok (m, t)) : CursorMoved s t := by
  induction k generalizing n s with
  | zero =>
    simp only [numberLoop, Except.ok.injEq, Prod.mk.injEq] at h
    rw [← h.2]; exact skipSpaces_moves s
  | succ k ih =>
    unfold numberLoop at h
    split at h
    · simp only [Except.ok.injEq, Prod.mk.injEq] at h
      rw [← h.2]; exact skipSpaces_moves s
    · split at h
      · cases h
      · exact (fetchAdvance_moves s).trans (ih _ _ h)

theorem readNumber_moves {n m : Nat} {s t : State} (h : readNumber n s = .ok (m, t)) :
    CursorMoved s t := numberLoop_moves _ _ _ _ _ h

/-- A number fits 16 bits if the part read before did (R120). -/
theorem numberLoop_le (k n : Nat) (s : State) (m : Nat) (t : State) (hn : n ≤ 65535)
    (h : numberLoop k n s = .ok (m, t)) : m ≤ 65535 := by
  induction k generalizing n s with
  | zero =>
    simp only [numberLoop, Except.ok.injEq, Prod.mk.injEq] at h
    omega
  | succ k ih =>
    unfold numberLoop at h
    split at h
    · simp only [Except.ok.injEq, Prod.mk.injEq] at h; omega
    · split at h
      · cases h
      · rename_i n' hd
        refine ih n' _ ?_ h
        unfold addDigit at hd
        split at hd
        · cases hd
        · simp only [Except.ok.injEq] at hd; omega

theorem readNumber_le {n m : Nat} {s t : State} (hn : n ≤ 65535)
    (h : readNumber n s = .ok (m, t)) : m ≤ 65535 := numberLoop_le _ _ _ _ _ hn h

/-- The one fault of `Number()` is `OVF_NUM` (R120). -/
theorem numberLoop_error (k n : Nat) (s : State) (c : FaultCode)
    (h : numberLoop k n s = .error c) : c = .ovfNum := by
  induction k generalizing n s with
  | zero => cases h
  | succ k ih =>
    unfold numberLoop at h
    split at h
    · cases h
    · split at h
      · rename_i c' hd
        unfold addDigit at hd
        split at hd
        · cases hd; cases h; rfl
        · cases hd
      · exact ih _ _ h

theorem sharpsLoop_moves (k : Nat) (p : Pitch) (s : State) :
    CursorMoved s (sharpsLoop k p s).2 := by
  induction k generalizing p s with
  | zero => exact skipSpaces_moves s
  | succ k ih =>
    unfold sharpsLoop
    split
    · exact (fetchAdvance_moves s).trans (ih _ _)
    · exact skipSpaces_moves s

/-- The sharps move the cursor; nothing else (R121). -/
theorem readSharps_moves (p : Pitch) (s : State) : CursorMoved s (readSharps p s).2 :=
  sharpsLoop_moves _ p s

theorem flatsLoop_moves (k : Nat) (p : Pitch) (s : State) : CursorMoved s (flatsLoop k p s).2 := by
  induction k generalizing p s with
  | zero => exact skipSpaces_moves s
  | succ k ih =>
    unfold flatsLoop
    split
    · exact (fetchAdvance_moves s).trans (ih _ _)
    · exact skipSpaces_moves s

/-- The flats move the cursor; nothing else (R121). -/
theorem readFlats_moves (p : Pitch) (s : State) : CursorMoved s (readFlats p s).2 :=
  flatsLoop_moves _ p s

/-- The dots move the cursor; nothing else (R123). -/
theorem dotsLoop_moves (k d bonus : Nat) (s : State) (d' : Nat) (t : State)
    (h : dotsLoop k d bonus s = .ok (d', t)) : CursorMoved s t := by
  induction k generalizing d bonus s with
  | zero =>
    simp only [dotsLoop, Except.ok.injEq, Prod.mk.injEq] at h
    rw [← h.2]; exact skipSpaces_moves s
  | succ k ih =>
    unfold dotsLoop at h
    split at h
    · split at h
      · cases h
      · exact (fetchAdvance_moves s).trans (ih _ _ _ h)
    · simp only [Except.ok.injEq, Prod.mk.injEq] at h
      rw [← h.2]; exact skipSpaces_moves s

theorem readDots_moves {d bonus d' : Nat} {s t : State} (h : readDots d bonus s = .ok (d', t)) :
    CursorMoved s t := dotsLoop_moves _ _ _ _ _ _ h

/-- A dotted duration fits 16 bits if the plain one did (R123). -/
theorem dotsLoop_le (k d bonus : Nat) (s : State) (d' : Nat) (t : State) (hd : d ≤ 65535)
    (h : dotsLoop k d bonus s = .ok (d', t)) : d' ≤ 65535 := by
  induction k generalizing d bonus s with
  | zero =>
    simp only [dotsLoop, Except.ok.injEq, Prod.mk.injEq] at h
    omega
  | succ k ih =>
    unfold dotsLoop at h
    split at h
    · split at h
      · cases h
      · rename_i d2 hdot
        refine ih d2 _ _ ?_ h
        unfold addDot at hdot
        split at hdot
        · cases hdot
        · simp only [Except.ok.injEq] at hdot; omega
    · simp only [Except.ok.injEq, Prod.mk.injEq] at h; omega

theorem readDots_le {d bonus d' : Nat} {s t : State} (hd : d ≤ 65535)
    (h : readDots d bonus s = .ok (d', t)) : d' ≤ 65535 := dotsLoop_le _ _ _ _ _ _ hd h

end Sys2Proof.Machine
end

