-- ==== Sys2Proof/Laws/Terms.lean ====
section
/-! SUPPORT. The small lemmas of the claims' own terms, so that no proof unfolds them. -/

namespace Sys2Proof.Machine

open Sys2Proof

/-! ## A number read in part -/

@[simp] theorem Place.numberFits_tokens : Place.tokens.numberFits = true := rfl
@[simp] theorem Place.numberFits_sharps (p : Pitch) : (Place.sharps p).numberFits = true := rfl
@[simp] theorem Place.numberFits_flats (p : Pitch) : (Place.flats p).numberFits = true := rfl
@[simp] theorem Place.numberFits_dots (p : Pitch) (d bonus : Nat) :
    (Place.dots p d bonus).numberFits = true := rfl
@[simp] theorem Place.numberFits_number (setting : Setting) (n : Nat) :
    (Place.number setting n).numberFits = decide (n ≤ 65535) := rfl
@[simp] theorem Place.numberFits_denominator (p : Pitch) (n : Nat) :
    (Place.denominator p n).numberFits = decide (n ≤ 65535) := rfl

/-- The invariant of the music state where no pull is in progress. -/
theorem State.musicOk_of_no_pull {s : State} (h : s.pull = none) : s.musicOk = s.eng.musicOk := by
  simp [State.musicOk, h]

/-- The invariant of the music state where a pull is in progress. -/
theorem State.musicOk_of_pull {s : State} {c : PullState} (h : s.pull = some c) :
    s.musicOk = (s.eng.musicOk && (c.entry.musicOk && c.place.numberFits)) := by
  simp [State.musicOk, h]

/-! ## The next command -/

theorem State.nextCommand_of_command {s : State} {w : CommandWord} {later : List Input}
    (h : s.inputs = .command w :: later) : s.nextCommand = some (decodeCommand w) := by
  simp [State.nextCommand, h]

theorem State.nextCommand_of_tick {s : State} {later : List Input} (h : s.inputs = .tick :: later) :
    s.nextCommand = none := by
  simp [State.nextCommand, h]

theorem State.nextCommand_of_load {s : State} {addr : Half} {byte : Byte} {later : List Input}
    (h : s.inputs = .load addr byte :: later) : s.nextCommand = none := by
  simp [State.nextCommand, h]

theorem State.nextCommand_of_none {s : State} (h : s.inputs = []) : s.nextCommand = none := by
  simp [State.nextCommand, h]

end Sys2Proof.Machine
end

