-- ==== Sys2Proof/Laws/Tokens.lean ====
section
/-! SUPPORT. What the shared operations of the sequencer can do, said once: a note tail, a settings
token, a score byte, the loop of a pull, and the steps of the agents. -/

namespace Sys2Proof.Machine

open Sys2Proof

/-! ## Faults -/

/-- A step that settles answers a next state: its result, or the fault it raised (R11). -/
theorem settle_next {s t : State} {r : Except FaultCode State} (h : s.settle r = .next t) :
    r = .ok t ∨ ∃ code, r = .error code ∧ t = s.raise code := by
  cases r with
  | ok u => simp only [State.settle, Host.Outcome.next.injEq] at h; exact .inl (by rw [h])
  | error code =>
    simp only [State.settle, Host.Outcome.next.injEq] at h
    exact .inr ⟨code, rfl, h.symm⟩

theorem settle_answers (s : State) (r : Except FaultCode State) : ∃ t, s.settle r = .next t := by
  cases r with
  | ok t => exact ⟨t, rfl⟩
  | error code => exact ⟨s.raise code, rfl⟩

@[simp] theorem settle_ok (s t : State) : s.settle (.ok t) = .next t := rfl

@[simp] theorem settle_error (s : State) (code : FaultCode) :
    s.settle (.error code) = .next (s.raise code) := rfl

theorem unlessHalted_of_live {s : State} (h : s.halted = false) (r : Answer) :
    s.unlessHalted r = r := by
  simp [State.unlessHalted, h]

theorem unlessHalted_of_halted {s : State} (h : s.halted = true) (r : Answer) :
    s.unlessHalted r = .next s := by
  simp [State.unlessHalted, h]

/-- A fault sets a bit, so the engine halts (R138). -/
theorem raise_halted (s : State) (code : FaultCode) : (s.raise code).halted = true := by
  have h : ∀ f : BitVec 5, ∀ c : FaultCode, ((f ||| c.mask) != 0) = true := by
    intro f c; cases c <;> revert f <;> decide
  exact h _ code

/-! ## Note tails -/

/-- `t` is `s` after a pull read on and issued a note or rest: the cursor forward, the pending rest of
the split, the tone started, the pull over (R124, R125). -/
def ItemIssued (s t : State) : Prop :=
  ∃ u d params, CursorMoved s u ∧ d ≤ 65535 ∧ (∃ p, planItem u p d = .ok params) ∧
    t = (u.mapEng fun e => (e.withSplit d).toneStart params).closePull

theorem ItemIssued.of_moved {s u t : State} (h : CursorMoved s u) (k : ItemIssued u t) :
    ItemIssued s t := by
  obtain ⟨v, d, params, hv, hd, hp, ht⟩ := k
  exact ⟨v, d, params, h.trans hv, hd, hp, ht⟩

theorem issueItem_ok {p : Pitch} {d : Nat} {s t : State} (hd : d ≤ 65535)
    (h : issueItem p d s = .ok t) : ItemIssued s t := by
  unfold issueItem at h
  split at h
  · cases h
  · rename_i params hp
    simp only [Except.ok.injEq] at h
    exact ⟨s, d, params, .refl s, hd, ⟨p, hp⟩, h.symm⟩

theorem tailFromDots_ok {p : Pitch} {d bonus : Nat} {s t : State} (hd : d ≤ 65535)
    (h : tailFromDots p d bonus s = .ok t) : ItemIssued s t := by
  unfold tailFromDots at h
  split at h
  · cases h
  · rename_i hr
    exact (issueItem_ok (readDots_le hd hr) h).of_moved (readDots_moves hr)

theorem tailFromDenominator_ok {p : Pitch} {n : Nat} {s t : State}
    (h : tailFromDenominator p n s = .ok t) : ItemIssued s t := by
  unfold tailFromDenominator at h
  split at h
  · cases h
  · rename_i m u hr
    split at h
    · cases h
    · have hw := u.eng.wholeMs.isLt
      have hd : u.eng.wholeMs.toNat / m ≤ 65535 :=
        le_trans (Nat.div_le_self _ _) (by omega)
      exact (tailFromDots_ok hd h).of_moved (readNumber_moves hr)

theorem tailFromDuration_ok {p : Pitch} {s t : State} (h : tailFromDuration p s = .ok t) :
    ItemIssued s t := by
  unfold tailFromDuration at h
  split at h
  · exact tailFromDenominator_ok h
  · exact tailFromDots_ok (by have := s.eng.duration.isLt; omega) h

theorem tailFromFlats_ok {p : Pitch} {s t : State} (h : tailFromFlats p s = .ok t) :
    ItemIssued s t :=
  (tailFromDuration_ok h).of_moved (readFlats_moves p s)

/-- Everything the tail of a note or rest letter can do, where it does not fault (R121 to R125). -/
theorem tailFromSharps_ok {p : Pitch} {s t : State} (h : tailFromSharps p s = .ok t) :
    ItemIssued s t :=
  (tailFromFlats_ok h).of_moved (readSharps_moves p s)

/-! ## Settings -/

/-- Everything a settings token can do, where it does not fault: its number is read and applied
(R113 to R116, R120). -/
theorem settingFromNumber_ok {setting : Setting} {n : Nat} {s t : State} (hn : n ≤ 65535)
    (h : settingFromNumber setting n s = .ok t) :
    ∃ m u, CursorMoved s u ∧ m ≤ 65535 ∧ applySetting setting m u = .ok t := by
  unfold settingFromNumber at h
  split at h
  · cases h
  · rename_i m u hr
    exact ⟨m, u, readNumber_moves hr, readNumber_le hn hr, h⟩

/-- What the four settings write, where they do not fault (R113 to R116). -/
theorem applySetting_ok {setting : Setting} {n : Nat} {s t : State}
    (h : applySetting setting n s = .ok t) :
    (setting = .octave ∧ t = ((s.atPlace .tokens).mapEng
      fun e => { e with octave := BitVec.ofNat 16 n }).withTmpOct n) ∨
    (setting = .tempo ∧ n ≠ 0 ∧ wholeNoteMs n ≤ 65535 ∧ t = (s.atPlace .tokens).mapEng
      fun e => { e with
        wholeMs := BitVec.ofNat 16 (wholeNoteMs n)
        duration := BitVec.ofNat 16 (wholeNoteMs n / e.noteType.toNat) }) ∨
    (setting = .length ∧ n ≠ 0 ∧ t = (s.atPlace .tokens).mapEng
      fun e => { e with
        noteType := BitVec.ofNat 16 n
        duration := BitVec.ofNat 16 (e.wholeMs.toNat / n) }) ∨
    (setting = .volume ∧ t = (s.atPlace .tokens).mapEng
      fun e => { e with volume := BitVec.ofNat 4 (min n 15) }) := by
  cases setting with
  | octave =>
    simp only [applySetting, applyOctave, Except.ok.injEq] at h
    exact .inl ⟨rfl, h.symm⟩
  | tempo =>
    unfold applySetting applyTempo at h
    simp only at h
    split at h
    · cases h
    · split at h
      · cases h
      · simp only [Except.ok.injEq] at h
        exact .inr (.inl ⟨rfl, by assumption, by omega, h.symm⟩)
  | length =>
    unfold applySetting applyLength at h
    simp only at h
    split at h
    · cases h
    · simp only [Except.ok.injEq] at h
      exact .inr (.inr (.inl ⟨rfl, by assumption, h.symm⟩))
  | volume =>
    simp only [applySetting, applyVolume, Except.ok.injEq] at h
    exact .inr (.inr (.inr ⟨rfl, h.symm⟩))

/-! ## Score bytes -/

/-- Everything a score byte can do (R11, R71, R73): nothing where the engine is halted, a fault, its
effect where the place accepts it, or the rest of the pending token. -/
theorem runByte_next {effect : Place → Option (State → Except FaultCode State)} {s t : State}
    (h : runByte effect s = .next t) :
    (s.halted = true ∧ t = s) ∨
    (s.halted = false ∧
      ((∃ code, t = s.raise code) ∨
       (∃ f, effect s.currentPull.place = some f ∧ f s.opened.advance = .ok t) ∨
       (effect s.currentPull.place = none ∧ resumeAt s.currentPull.place s.opened = .ok t))) := by
  unfold runByte at h
  cases hh : s.halted with
  | true =>
    rw [unlessHalted_of_halted hh] at h
    simp only [Host.Outcome.next.injEq] at h
    exact .inl ⟨rfl, h.symm⟩
  | false =>
    rw [unlessHalted_of_live hh] at h
    refine .inr ⟨rfl, ?_⟩
    rcases settle_next h with hr | ⟨code, _, ht⟩
    · right
      split at hr
      · rename_i f hf; exact .inl ⟨f, hf, hr⟩
      · rename_i hf; exact .inr ⟨hf, hr⟩
    · exact .inl ⟨code, ht⟩

/-- A digit that is taken fits 16 bits with what was read before it (R120). -/
theorem addDigit_ok {n v n' : Nat} (h : addDigit n v = .ok n') : n' = 10 * n + v ∧ n' ≤ 65535 := by
  unfold addDigit at h
  split at h
  · cases h
  · simp only [Except.ok.injEq] at h
    omega

/-- Everything a digit can do where a place accepts it and the number does not overflow: the number grows
by it and fits 16 bits (R120, R122). -/
theorem digitEffect_ok {v : Nat} {place : Place} {f : State → Except FaultCode State} {s t : State}
    (h : digitEffect v place = some f) (hf : f s = .ok t) :
    (∃ setting n, place = .number setting n ∧ 10 * n + v ≤ 65535 ∧
      t = s.atPlace (.number setting (10 * n + v))) ∨
    (∃ p n, place = .denominator p n ∧ 10 * n + v ≤ 65535 ∧
      t = s.atPlace (.denominator p (10 * n + v))) := by
  cases place with
  | tokens => simp [digitEffect] at h
  | sharps p => simp [digitEffect] at h
  | flats p => simp [digitEffect] at h
  | dots p d bonus => simp [digitEffect] at h
  | number setting n =>
    simp only [digitEffect, Option.some.injEq] at h
    subst h
    simp only at hf
    split at hf
    · cases hf
    · rename_i n' hn
      obtain ⟨rfl, hle⟩ := addDigit_ok hn
      exact .inl ⟨setting, n, rfl, hle, by cases hf; rfl⟩
  | denominator p n =>
    simp only [digitEffect, Option.some.injEq] at h
    subst h
    simp only at hf
    split at hf
    · cases hf
    · rename_i n' hn
      obtain ⟨rfl, hle⟩ := addDigit_ok hn
      exact .inr ⟨p, n, rfl, hle, by cases hf; rfl⟩

/-- Every score byte answers a next state. -/
theorem runByte_answers (effect : Place → Option (State → Except FaultCode State)) (s : State) :
    ∃ t, runByte effect s = .next t := by
  unfold runByte State.unlessHalted
  split
  · exact ⟨s, rfl⟩
  · exact settle_answers _ _

/-- A token at the head of the token loop (R100). -/
theorem runToken_at_tokens {f : State → Except FaultCode State} {s : State}
    (hs : s.halted = false) (hp : s.currentPull.place = .tokens) :
    runToken f s = s.settle (f s.opened.advance) := by
  simp [runToken, runByte, unlessHalted_of_live hs, hp]

/-! ## Pulls -/

/-- What holds at the start of a pull and is kept by every score token holds at its end. -/
theorem pullLoop_keeps (P : State → Prop)
    (token : ∀ s t, s.pull.isSome = true → P s → execToken s.nextToken s = .next t → P t)
    (k : Nat) (s t : State) (hs : P s) (h : pullLoop k s = .next t) : P t := by
  induction k generalizing s with
  | zero =>
    unfold pullLoop at h
    split at h
    · cases h; exact hs
    · cases h
  | succ k ih =>
    unfold pullLoop at h
    split at h
    · cases h; exact hs
    · rename_i hopen
      split at h
      · rename_i u hu
        exact ih u (token s u (by cases hp : s.pull <;> simp_all) hs hu) h
      · cases h
      · cases h

/-- A pull's loop that answers a next state has ended the pull (R100). -/
theorem pullLoop_ends (k : Nat) (s t : State) (h : pullLoop k s = .next t) : t.pull = none := by
  induction k generalizing s with
  | zero =>
    unfold pullLoop at h
    split at h
    · rename_i hn; cases h; exact Option.isNone_iff_eq_none.1 hn
    · cases h
  | succ k ih =>
    unfold pullLoop at h
    split at h
    · rename_i hn; cases h; exact Option.isNone_iff_eq_none.1 hn
    · split at h
      · exact ih _ h
      · cases h
      · cases h

/-- The pending rest always plays (R101). -/
theorem playPendingRest_eq (s : State) :
    playPendingRest s = .ok (s.mapEng fun e => ({ e with staccRest := 0 } : Engine).toneStart
      { freq := 1000, prescale := .div1, top := baselineTop s.cfg, duty := 0,
        timeout := s.eng.staccRest }).closePull := by
  unfold playPendingRest
  rw [planNote_silent, planSilent_eq]

/-- The two ways a pull goes (R100, R101). -/
theorem runPull_next {origin : Engine} {s t : State} (h : runPull origin s = .next t) :
    (s.eng.restPending = true ∧ playPendingRest (s.openPull origin) = .ok t) ∨
    (s.eng.restPending = false ∧ pullLoop (s.remaining + 1) (s.openPull origin) = .next t) := by
  unfold runPull at h
  split at h
  · rename_i hr
    rcases settle_next h with h | ⟨code, hc, _⟩
    · exact .inl ⟨hr, h⟩
    · rw [playPendingRest_eq] at hc; cases hc
  · rename_i hr
    exact .inr ⟨by simpa using hr, h⟩

/-- Every pull that answers a next state is over (R145). -/
theorem runPull_ends {origin : Engine} {s t : State} (h : runPull origin s = .next t) :
    t.pull = none := by
  rcases runPull_next h with ⟨_, hr⟩ | ⟨_, hl⟩
  · rw [playPendingRest_eq] at hr
    simp only [Except.ok.injEq] at hr
    rw [← hr]; rfl
  · exact pullLoop_ends _ _ _ hl

/-- Where the pull's loop runs a score token, it runs what `exec` runs. -/
theorem execToken_eq_exec (i : Instr) (s : State) :
    execToken i s = exec i s ∨ execToken i s = .fault .commandInScore := by
  cases i <;> first | exact .inl rfl | exact .inr rfl

/-! ## Agents -/

/-- Everything a tick can do (R141 to R143). -/
theorem tick_next {s t : State} (h : tick s = .next t) :
    (s.tickEnabled = false ∧ t = s) ∨
    (s.tickEnabled = true ∧ s.eng.timeout ≠ 0 ∧ t = s.mapEng Engine.countDown) ∨
    (s.tickEnabled = true ∧ s.eng.timeout = 0 ∧ s.eng.pullsAtExpiry = false ∧
      t = s.mapEng fun e => e.expire s.cfg) ∨
    (s.tickEnabled = true ∧ s.eng.timeout = 0 ∧ s.eng.pullsAtExpiry = true ∧
      runPull s.eng (s.mapEng fun e => e.expire s.cfg) = .next t) := by
  unfold tick at h
  split at h
  · rename_i hen
    split at h
    · rename_i h0
      unfold expiry at h
      split at h
      · rename_i hp; exact .inr (.inr (.inr ⟨hen, h0, hp, h⟩))
      · rename_i hp
        simp only [Host.Outcome.next.injEq] at h
        exact .inr (.inr (.inl ⟨hen, h0, by simpa using hp, h.symm⟩))
    · rename_i h0
      simp only [Host.Outcome.next.injEq] at h
      exact .inr (.inl ⟨hen, h0, h.symm⟩)
  · rename_i hen
    simp only [Host.Outcome.next.injEq] at h
    exact .inl ⟨by simpa using hen, h.symm⟩

/-- Everything the host's placing of a byte can do (R63). -/
theorem placeByte_next {addr : Half} {byte : Byte} {s t : State}
    (h : placeByte addr byte s = .next t) :
    s.eng.seqActive = false ∧ t = { s with mem := s.mem.write addr.toNat byte } := by
  unfold placeByte at h
  split at h
  · cases h
  · rename_i ha
    simp only [Host.Outcome.next.injEq] at h
    exact ⟨by simpa using ha, h.symm⟩

/-- A step runs the score byte at the cursor while a pull is in progress, else one agent. -/
theorem step_eq (s : State) :
    step s = if s.pull.isSome then exec s.nextToken s else agentStep s := rfl

end Sys2Proof.Machine
end

