-- ==== Sys2Proof/Tests/Slice0.lean ====
section
/-! SUPPORT. Tests: what WellFormed refuses, one decoded word per instruction, one or two single steps per
instruction with the results spec/95_test_vectors.md gives, and a witness for every statement that has
hypotheses. -/

namespace Sys2Proof.Tests

open Sys2Proof Sys2Proof.Machine

/-! ## Helpers -/

/-- Reset, with a score placed at address 0 and a sequence active on it. -/
def scored (text : List Byte) : State :=
  { State.reset with
    mem := Memory.writeFrom [] 0 text
    eng := { State.reset.eng with seqActive := true, seqLen := BitVec.ofNat 16 text.length } }

/-- The same with a pull at the head of the token loop. -/
def pulling (text : List Byte) : State := (scored text).openPull (scored text).eng

/-- The same with the pull at another place. -/
def placed (text : List Byte) (p : Place) : State := (pulling text).atPlace p

/-- Reset with something to come from outside. -/
def coming (inputs : List Input) : State := { State.reset with inputs := inputs }

/-- A tone that is sounding. -/
def sounding (timeout : Half) : State :=
  { State.reset with eng := { State.reset.eng with
      tickIE := true, finished := false, timeout := timeout } }

/-- Reset with the registers rewritten. -/
def withEng (f : Engine → Engine) : State := State.reset.mapEng f

/-- The registers a next state has. -/
def engOf (a : Answer) : Option Engine :=
  match a with
  | .next s => some s.eng
  | .fault _ => none
  | .refused _ => none

/-- The newest event, the cursor and the fault code a step leaves. -/
def seen (a : Answer) : Option (Option Event × Nat × Nat) :=
  (engOf a).map fun e => (e.trace.getLast?, e.seqOff.toNat, e.faultCause.toNat)

/-- The tone event of five numbers. -/
def toneEvent (freq : Half) (pre : Prescale) (top duty timeout : Half) : Option Event :=
  some (.tone ⟨freq, pre, top, duty, timeout⟩)

/-- `PLAY_SEQ` from reset of a score placed at 0x0100. -/
def playSeqOf (text : List Byte) : Answer :=
  exec (.playSeq 0x0100 (BitVec.ofNat 16 text.length))
    { State.reset with mem := Memory.writeFrom [] 0x0100 text }

/-! ## WellFormed refuses -/

theorem test_wf_refuses_legal_word_as_illegal : (Instr.illegalCmd 0x070000000000).wf = false := by
  decide
theorem test_wf_refuses_play_freq_word_as_illegal :
    (Instr.illegalCmd 0x0101B803E80F).wf = false := by decide
theorem test_wf_refuses_ms_with_upper_l : (Instr.staccato 0x4C).wf = false := by decide
theorem test_wf_refuses_ms_with_lower_l : (Instr.staccato 0x6C).wf = false := by decide
theorem test_wf_refuses_ms_with_space : (Instr.staccato 0x20).wf = false := by decide
theorem test_wf_refuses_letter_as_terminator : (Instr.terminator 0x61).wf = false := by decide
theorem test_wf_refuses_digit_as_terminator : (Instr.terminator 0x39).wf = false := by decide

/-! ## Decoding: one word per instruction, written out from R67 and R71 -/

theorem test_decode_playFreq : decodeTableWord 48 0x0101B803E80F = some (.playFreq 440 1000 15) := by decide
theorem test_decode_playNote : decodeTableWord 48 0x02003901F40F = some (.playNote 57 500 15) := by decide
theorem test_decode_playSeq : decodeTableWord 48 0x030100000E00 = some (.playSeq 0x0100 14) := by decide
theorem test_decode_playMode : decodeTableWord 48 0x040000000001 = some (.playMode .checkDriven) := by decide
theorem test_decode_playCheck : decodeTableWord 48 0x050000000000 = some .playCheck := by decide
theorem test_decode_isPlaying : decodeTableWord 48 0x060000000000 = some .isPlaying := by decide
theorem test_decode_stop : decodeTableWord 48 0x070000000000 = some .stop := by decide
theorem test_decode_illegalCmd : decodeTableWord 48 0x02013901F40F = some (.illegalCmd 0x02013901F40F) := by decide
theorem test_decode_octaveUp : decodeTableWord 8 0x3E = some .octaveUp := by decide
theorem test_decode_octaveDown : decodeTableWord 8 0x3C = some .octaveDown := by decide
theorem test_decode_noteA : decodeTableWord 8 0x41 = some .noteA := by decide
theorem test_decode_noteB : decodeTableWord 8 0x62 = some .noteB := by decide
theorem test_decode_noteC : decodeTableWord 8 0x43 = some .noteC := by decide
theorem test_decode_noteD : decodeTableWord 8 0x64 = some .noteD := by decide
theorem test_decode_noteE : decodeTableWord 8 0x45 = some .noteE := by decide
theorem test_decode_noteF : decodeTableWord 8 0x66 = some .noteF := by decide
theorem test_decode_noteG : decodeTableWord 8 0x47 = some .noteG := by decide
theorem test_decode_rest : decodeTableWord 8 0x72 = some .rest := by decide
theorem test_decode_setOctave : decodeTableWord 8 0x4F = some .setOctave := by decide
theorem test_decode_setTempo : decodeTableWord 8 0x54 = some .setTempo := by decide
theorem test_decode_setLength : decodeTableWord 8 0x6C = some .setLength := by decide
theorem test_decode_setVolume : decodeTableWord 8 0x56 = some .setVolume := by decide
theorem test_decode_legato : decodeTableWord 16 0x4D4C = some .legato := by decide
theorem test_decode_staccato : decodeTableWord 16 0x4D53 = some (.staccato 0x53) := by decide
theorem test_decode_resetMusic : decodeTableWord 8 0x21 = some .resetMusic := by decide
theorem test_decode_sharpPlus : decodeTableWord 8 0x2B = some .sharpPlus := by decide
theorem test_decode_sharpHash : decodeTableWord 8 0x23 = some .sharpHash := by decide
theorem test_decode_flat : decodeTableWord 8 0x2D = some .flat := by decide
theorem test_decode_digitLow : decodeTableWord 8 0x35 = some (.digitLow 5) := by decide
theorem test_decode_digitHigh : decodeTableWord 8 0x39 = some (.digitHigh 1) := by decide
theorem test_decode_dot : decodeTableWord 8 0x2E = some .dot := by decide
theorem test_decode_space : decodeTableWord 8 0x20 = some .space := by decide
theorem test_decode_terminator : decodeTableWord 8 0x5A = some (.terminator 0x5A) := by decide
theorem test_decode_lower_case_ml : decodeTableWord 16 0x6D6C = some .legato := by decide
theorem test_decode_no_other_width : decodeTableWord 24 0x434343 = none := by decide

/-! ## Single steps: host commands (section 4 of the vectors) -/

theorem test_playFreq_440 : seen (exec (.playFreq 440 1000 15) .reset) =
    some (toneEvent 440 .div1 18182 9091 440, 0, 0) := by decide
theorem test_playFreq_ceiling : engOf (exec (.playFreq 10000 6554 15) .reset) =
    some { State.reset.eng with fault := 0b01000, faultCause := 4 } := by decide
theorem test_playNote_a4 : seen (exec (.playNote 57 500 15) .reset) =
    some (toneEvent 440 .div1 18182 9091 220, 0, 0) := by decide
theorem test_playNote_silent : seen (exec (.playNote 255 100 15) .reset) =
    some (toneEvent 1000 .div1 8000 0 100, 0, 0) := by decide
theorem test_playSeq_cdefgab : seen (playSeqOf
    [0x4C, 0x31, 0x36, 0x20, 0x56, 0x38, 0x20, 0x43, 0x44, 0x45, 0x46, 0x47, 0x41, 0x42]) =
    some (toneEvent 262 .div1 30534 119 32, 8, 0) := by decide
theorem test_playSeq_empty : (engOf (playSeqOf [])).map (fun e => (e.trace, e.seqActive)) =
    some ([.silent, .endOfSequence], false) := by decide
theorem test_playMode_check : (engOf (exec (.playMode .checkDriven) .reset)).map Engine.mode =
    some .checkDriven := by decide
theorem test_playMode_auto_catches_up :
    seen (exec (.playMode .automatic) (scored [0x44])) =
    some (toneEvent 294 .div1 27211 13605 147, 1, 0) := by decide
theorem test_playCheck_idle : seen (exec .playCheck .reset) =
    some (some (.resp false), 0, 0) := by decide
theorem test_playCheck_pulls : (engOf (exec .playCheck (scored [0x44]))).map Engine.trace =
    some [.tone ⟨294, .div1, 27211, 13605, 147⟩, .resp true] := by decide
theorem test_isPlaying_idle : seen (exec .isPlaying .reset) = some (some (.resp false), 0, 0) := by
  decide
theorem test_isPlaying_sounding : seen (exec .isPlaying (sounding 5)) =
    some (some (.resp true), 0, 0) := by decide
theorem test_stop : (engOf (exec .stop (sounding 121))).map
    (fun e => (e.finished, e.tickIE, e.timeout, e.trace)) =
    some (true, false, 121, [.silent]) := by decide
theorem test_illegalCmd : engOf (exec (.illegalCmd 0x050001000000) .reset) =
    some { State.reset.eng with fault := 0b10000, faultCause := 5 } := by decide

/-! ## Single steps: score tokens (section 3 of the vectors) -/

theorem test_noteA : seen (playSeqOf [0x41]) =
    some (toneEvent 440 .div1 18182 9091 220, 1, 0) := by decide
theorem test_noteB : seen (playSeqOf [0x42]) =
    some (toneEvent 494 .div1 16194 8097 247, 1, 0) := by decide
theorem test_noteC : seen (playSeqOf [0x43]) =
    some (toneEvent 262 .div1 30534 15267 131, 1, 0) := by decide
theorem test_noteD : seen (playSeqOf [0x44]) =
    some (toneEvent 294 .div1 27211 13605 147, 1, 0) := by decide
theorem test_noteE : seen (playSeqOf [0x45]) =
    some (toneEvent 330 .div1 24242 12121 165, 1, 0) := by decide
theorem test_noteF : seen (playSeqOf [0x46]) =
    some (toneEvent 350 .div1 22857 11428 175, 1, 0) := by decide
theorem test_noteG : seen (playSeqOf [0x47]) =
    some (toneEvent 392 .div1 20408 10204 196, 1, 0) := by decide
theorem test_rest_eighth : seen (playSeqOf [0x52, 0x38]) =
    some (toneEvent 1000 .div1 8000 0 250, 2, 0) := by decide
theorem test_octaveUp : seen (playSeqOf [0x3E, 0x3E, 0x43]) =
    some (toneEvent 1046 .div1 7648 3824 523, 3, 0) := by decide
theorem test_octaveDown_clamps : seen (playSeqOf [0x4F, 0x30, 0x20, 0x3C, 0x43]) =
    some (toneEvent 0x819C .div8 24272 12136 20, 5, 0) := by decide
theorem test_octaveDown : seen (playSeqOf [0x3C, 0x41]) =
    some (toneEvent 220 .div1 36364 18182 110, 2, 0) := by decide
theorem test_setOctave : seen (playSeqOf [0x4F, 0x35, 0x20, 0x43]) =
    some (toneEvent 523 .div1 15296 7648 261, 4, 0) := by decide
theorem test_setOctave_clamped : seen (playSeqOf [0x4F, 0x31, 0x30, 0x20, 0x43]) =
    some (toneEvent 9958 .div1 803 401 4979, 5, 0) := by decide
theorem test_setTempo : seen (playSeqOf [0x54, 0x37, 0x20, 0x43]) =
    some (toneEvent 262 .div1 30534 15267 2245, 4, 0) := by decide
theorem test_setTempo_overflow : seen (playSeqOf [0x54, 0x33, 0x20, 0x43]) =
    some (none, 0, 3) := by decide
theorem test_setLength : seen (playSeqOf [0x4C, 0x31, 0x20, 0x36, 0x20, 0x43]) =
    some (toneEvent 262 .div1 30534 15267 32, 6, 0) := by decide
theorem test_setLength_zero : seen (playSeqOf [0x4C, 0x30, 0x20, 0x43]) =
    some (none, 0, 2) := by decide
theorem test_setVolume : seen (playSeqOf [0x56, 0x38, 0x20, 0x43]) =
    some (toneEvent 262 .div1 30534 119 131, 4, 0) := by decide
theorem test_setVolume_clamped : seen (playSeqOf [0x56, 0x39, 0x39, 0x20, 0x43]) =
    some (toneEvent 262 .div1 30534 15267 131, 5, 0) := by decide
theorem test_staccato : seen (playSeqOf [0x4D, 0x58, 0x20, 0x43]) =
    some (toneEvent 262 .div1 30534 15267 65, 4, 0) := by decide
theorem test_staccato_at_end : seen (playSeqOf [0x4D]) =
    some (some .endOfSequence, 1, 0) := by decide
theorem test_legato : seen (playSeqOf [0x4D, 0x20, 0x4C, 0x20, 0x43]) =
    some (toneEvent 262 .div1 30534 15267 131, 5, 0) := by decide
theorem test_resetMusic : seen (playSeqOf [0x4F, 0x36, 0x20, 0x56, 0x33, 0x20, 0x21, 0x20, 0x43]) =
    some (toneEvent 262 .div1 30534 15267 131, 9, 0) := by decide
theorem test_sharpPlus : seen (playSeqOf [0x43, 0x2B, 0x2D]) =
    some (toneEvent 262 .div1 30534 15267 131, 3, 0) := by decide
theorem test_sharpHash : seen (playSeqOf [0x43, 0x23]) =
    some (toneEvent 277 .div1 28881 14440 138, 2, 0) := by decide
theorem test_flat_leaves_sharp : seen (playSeqOf [0x43, 0x2D, 0x2B]) =
    some (toneEvent 247 .div1 32389 16194 123, 2, 0) := by decide
theorem test_digits : seen (playSeqOf [0x43, 0x31, 0x36]) =
    some (toneEvent 262 .div1 30534 15267 32, 3, 0) := by decide
theorem test_digits_overflow : seen (playSeqOf [0x43, 0x36, 0x35, 0x35, 0x33, 0x36]) =
    some (none, 0, 1) := by decide
theorem test_digits_full_width : seen (playSeqOf [0x43, 0x36, 0x35, 0x35, 0x33, 0x35]) =
    some (toneEvent 262 .div1 30534 15267 0, 6, 0) := by decide
theorem test_dots : seen (playSeqOf [0x43, 0x31, 0x36, 0x2E, 0x2E]) =
    some (toneEvent 262 .div1 30534 15267 57, 5, 0) := by decide
theorem test_dots_overflow : seen (playSeqOf [0x54, 0x34, 0x20, 0x4C, 0x31, 0x20, 0x43, 0x2E]) =
    some (none, 0, 3) := by decide
theorem test_spaces : seen (playSeqOf [0x43, 0x20, 0x31, 0x20, 0x36, 0x20, 0x2E]) =
    some (toneEvent 262 .div1 30534 15267 48, 7, 0) := by decide
theorem test_terminator : seen (playSeqOf [0x56, 0x35, 0x20, 0x2E, 0x43]) =
    some (some .endOfSequence, 4, 0) := by decide
theorem test_score_wraps : seen (exec (.playSeq 0xFFFF 2)
    { State.reset with mem := [(0, 0x44), (0xFFFF, 0x20)] }) =
    some (toneEvent 294 .div1 27211 13605 147, 2, 0) := by decide

/-! ## Single steps: ticks (section 5 of the vectors) -/

theorem test_tick_counts_down : (engOf (tick (sounding 2))).map Engine.timeout = some 1 := by decide
theorem test_tick_expires : (engOf (tick (sounding 0))).map
    (fun e => (e.timeout, e.finished, e.tickIE, e.trace)) =
    some (0xFFFF, true, false, [.silent]) := by decide
theorem test_load_refused_during_playback :
    stops (step { scored [0x43] with inputs := [.load 0 0x44] }) = true := by decide

/-! ## The placing of one instruction -/

theorem test_fetch_command : seen (step (State.reset.withFetchWord 48 0x0101B803E80F)) =
    some (toneEvent 440 .div1 18182 9091 440, 0, 0) := by decide
theorem test_fetch_note : seen (step (State.reset.withFetchWord 8 0x43)) =
    some (toneEvent 262 .div1 30534 15267 131, 1, 0) := by decide
theorem test_fetch_two_bytes :
    (engOf (step (State.reset.withFetchWord 16 0x4D53))).map
      (fun e => (e.staccato, e.seqOff.toNat)) = some (true, 2) := by decide

/-! ## Witnesses: for each statement with hypotheses, a state and operands that meet them -/

theorem witness_DecodeOfEncodeIsIdentity :
    (Instr.illegalCmd 0).wf = true ∧ (Instr.staccato 0x53).wf = true ∧
    (Instr.terminator 0x00).wf = true ∧ (Instr.digitHigh 1).wf = true := by decide

theorem witness_live_at_reset : State.reset.halted = false ∧ State.reset.pull = none := by decide

/-- Words of each clause, at the edges of the opcodes and of the reserved fields (live state: reset). -/
theorem witness_UnspelledWordRaisesIllegalCmd :
    decodeCommand 0x00FFFFFFFFFF = .illegalCmd 0x00FFFFFFFFFF ∧
    decodeCommand 0x080000000000 = .illegalCmd 0x080000000000 ∧
    decodeCommand 0xFFFFFFFFFFFF = .illegalCmd 0xFFFFFFFFFFFF ∧
    decodeCommand 0x020100000000 = .illegalCmd 0x020100000000 ∧
    decodeCommand 0x030000000001 = .illegalCmd 0x030000000001 ∧
    decodeCommand 0x040000000002 = .illegalCmd 0x040000000002 ∧
    decodeCommand 0x070000000080 = .illegalCmd 0x070000000080 ∧
    decodeCommand 0x010000000000 = .playFreq 0 0 0 ∧
    decodeCommand 0x0200FFFFFFFF = .playNote 0xFF 0xFFFF 0xFF := by decide

theorem witness_StepRunsTheNextInput :
    (coming [.command 0x070000000000]).pull = none ∧ (coming [.tick]).pull = none ∧
    (coming [.reset]).pull = none ∧ State.reset.pull = none ∧ State.reset.inputs = [] ∧
    (coming [.load 0xFFFF 0x43]).pull = none ∧ (coming [.load 0xFFFF 0x43]).eng.seqActive = false ∧
    (coming [.load 0xFFFF 0x43]).mem.wf = true := by decide

theorem witness_StepRunsTheTokenAtTheCursor :
    (pulling [0x43]).pull = some ⟨(scored [0x43]).eng, 4, .tokens⟩ := by decide

theorem witness_PlacedWordRunsNext : State.reset.mem.wf = true ∧
    decodeTableWord 48 0x070000000000 = some .stop ∧ decodeTableWord 8 0x43 = some .noteC ∧
    decodeTableWord 16 0x4D20 = some (.staccato 0x00) := by decide

theorem witness_PlayFreqPlaysThePlan : State.reset.halted = false ∧ State.reset.pull = none ∧
    (plan State.reset.cfg 10000 6553 15).toOption = some ⟨10000, .div1, 800, 400, 65530⟩ ∧
    (plan State.reset.cfg 10000 6554 15).toOption = none := by decide

theorem witness_PlayNotePlaysThePlan : State.reset.halted = false ∧ State.reset.pull = none ∧
    (planNote State.reset.cfg (.note 111) 6581 15).toOption = some ⟨9958, .div1, 803, 401, 65533⟩ ∧
    (planNote State.reset.cfg (.note 111) 6582 15).toOption = none ∧
    (planNote State.reset.cfg .silent 65535 15).toOption =
      some ⟨1000, .div1, 8000, 0, 65535⟩ := by decide

/-- The set-up of `PLAY_SEQ` from reset on a score at 0x0100. -/
def setUp (text : List Byte) : State :=
  ({ State.reset with
    mem := Memory.writeFrom [] 0x0100 text
    eng := { State.reset.eng with
      seqBase := 0x0100, seqLen := BitVec.ofNat 16 text.length, seqActive := true } } :
    State).openPull State.reset.eng

theorem witness_PlaySeqOfEndedScoreEndsAtOnce : State.reset.halted = false ∧
    endsSequence (setUp []).nextToken = true ∧ endsSequence (setUp [0x5A]).nextToken = true ∧
    endsSequence (setUp [0x2E]).nextToken = true := by decide

theorem witness_PlaySeqPlaysTheFirstItem : State.reset.halted = false ∧
    (letterPitch (setUp [0x43]).nextToken (setUp [0x43]).tmpOct) = some (.note 48) ∧
    (letterPitch (setUp [0x52, 0x38]).nextToken (setUp [0x52, 0x38]).tmpOct) = some .silent := by
  decide

/-- A finished note waits (`PLAY_CHECK`, `PLAY_MODE AUTO` pull), and none does. -/
theorem witness_PlayModeSwitchesAndCatchesUp :
    (scored [0x44]).halted = false ∧
    ((scored [0x44]).eng.finished = true ∧ (scored [0x44]).eng.seqActive = true) ∧
    State.reset.halted = false ∧
    ¬(State.reset.eng.finished = true ∧ State.reset.eng.seqActive = true) := by decide

theorem witness_PlayCheckAdvancesAndAnswers :
    (scored [0x54, 0x30]).halted = false ∧
    ((scored [0x54, 0x30]).eng.finished = true ∧ (scored [0x54, 0x30]).eng.seqActive = true) ∧
    (sounding 0).halted = false ∧
    ¬((sounding 0).eng.finished = true ∧ (sounding 0).eng.seqActive = true) := by decide

theorem witness_PendingRestPlaysFirst :
    (withEng fun e => { e with staccato := true, staccRest := 0xFFFF }).eng.staccato = true ∧
    (withEng fun e => { e with staccato := true, staccRest := 0xFFFF }).eng.staccRest ≠ 0 := by
  decide

theorem witness_PullEndsAtATerminator : (scored [0x2B]).halted = false ∧
    ¬((scored [0x2B]).eng.staccato = true ∧ (scored [0x2B]).eng.staccRest ≠ 0) ∧
    endsSequence (scored [0x2B]).nextToken = true ∧ endsSequence (scored []).nextToken = true := by
  decide

theorem witness_PullIsItsTokenSteps : (scored [0x3E, 0x20, 0x43]).halted = false ∧
    ¬((scored [0x3E, 0x20, 0x43]).eng.staccato = true ∧
      (scored [0x3E, 0x20, 0x43]).eng.staccRest ≠ 0) := by decide

/-- The hypotheses of every statement about a score token at the head of the token loop. -/
theorem witness_token_loop : (pulling [0x3E, 0x43]).halted = false ∧
    (pulling [0x3E, 0x43]).currentPull.place = .tokens := by decide

theorem witness_LettersPlayTheirTail : (pulling [0x43]).halted = false ∧
    (pulling [0x43]).currentPull.place = .tokens ∧
    letterPitch .noteC (pulling [0x43]).tmpOct = some (.note 48) ∧
    letterPitch .rest (pulling [0x52]).tmpOct = some .silent ∧
    (match noteDuration (pulling [0x43, 0x30]).advance with
      | .error code => some code | .ok _ => none) = some .div0 ∧
    (match noteDuration (pulling [0x43, 0x34, 0x2E]).advance with
      | .error _ => none
      | .ok (d, u) =>
        match readDots d (d / 2) u with
        | .error _ => none
        | .ok (d', v) =>
          match planNote v.cfg (.note 48) (BitVec.ofNat 16 d') 15 with
          | .error _ => none
          | .ok q => some (d, d', q.timeout.toNat)) = some (500, 750, 196) := by decide

/-- `C+ 16..` and a plain `R` at the end of the score. -/
theorem witness_NoteTextPlaysItsNote :
    (let s := pulling [0x43, 0x2B, 0x20, 0x31, 0x36, 0x2E, 0x2E]
     let n : NoteText := ⟨[0x2B, 0x20], [], [0x31, 0x36], [0x2E, 0x2E]⟩
     s.halted = false ∧ s.currentPull.place = .tokens ∧
     letterPitch .noteC s.tmpOct = some (.note 48) ∧
     (∀ c ∈ s.cfg.durFirstDigits, isDigit c = true) ∧
     n.wf = true ∧ n.durationLegal s.cfg = true ∧ n.duration s.eng = 218 ∧
     s.advance.shows n.text ∧ endsNote s.cfg (s.advance.charAfter n.text.length) = true ∧
     (planNote s.cfg (n.pitch (.note 48)) 218 (s.eng.volume.setWidth 8)).toOption =
       some ⟨277, .div1, 28881, 14440, 60⟩) ∧
    (let s := pulling [0x52]
     let n : NoteText := ⟨[], [], [], []⟩
     letterPitch .rest s.tmpOct = some .silent ∧ n.wf = true ∧ n.durationLegal s.cfg = true ∧
     n.duration s.eng = 500 ∧ s.advance.shows n.text ∧
     endsNote s.cfg (s.advance.charAfter n.text.length) = true) := by decide

/-- What a settings token reads after its letter. -/
def numberRead (text : List Byte) : Option Nat :=
  ((readNumber 0 (pulling text).opened.advance).toOption).map Prod.fst

/-- Numbers of every clause of the settings statements: empty, at the edges of the tempo's range, the
widest number, and one past it (the token loop: `witness_token_loop`). -/
theorem witness_settings_numbers : numberRead [0x4F] = some 0 ∧ numberRead [0x54, 0x33] = some 3 ∧
    numberRead [0x54, 0x34] = some 4 ∧ numberRead [0x56, 0x31, 0x36] = some 16 ∧
    numberRead [0x4C, 0x36, 0x35, 0x35, 0x33, 0x35] = some 65535 ∧
    numberRead [0x4C, 0x36, 0x35, 0x35, 0x33, 0x36] = none := by decide

theorem witness_TerminatorEndsTheSequence : endsSequence (.terminator 0) = true ∧
    endsSequence .sharpPlus = true ∧ endsSequence (.digitHigh 1) = true ∧
    (pulling [0x2B]).halted = false ∧ (pulling [0x2B]).currentPull.place = .tokens := by decide

theorem witness_AccidentalBytesShiftThePitch :
    (placed [0x2B] (.sharps (.note 48))).halted = false ∧
    (placed [0x2B] (.sharps (.note 48))).currentPull.place = .sharps (.note 48) ∧
    (placed [0x2D] (.flats .silent)).currentPull.place = .flats .silent ∧
    (placed [0x2B] (.flats (.note 47))).currentPull.place = .flats (.note 47) ∧
    (placed [0x2B] (.flats (.note 47))).char = 0x2B ∧
    (match noteDuration (placed [0x2B] (.flats (.note 47))).opened with
      | .error _ => none | .ok (d, u) => some (d, u.eng.seqOff.toNat)) = some (500, 0) := by decide

/-- `+` after `-` stays unread and the note is issued without it (R121: C-+ is index 47). -/
theorem test_sharp_after_flat :
    (engOf (exec .sharpPlus (placed [0x2B] (.flats (.note 47))))).map
      (fun e => (e.toneFreq.toNat, e.seqOff.toNat, e.finished)) = some (247, 0, false) := by decide

/-- Each place, with a value at the edge of each clause. -/
theorem witness_DigitAndDotBytesAccumulate :
    (placed [0x35] (.number .octave 6553)).halted = false ∧
    (placed [0x35] (.number .octave 6553)).currentPull.place = .number .octave 6553 ∧
    10 * 6553 + (5 : BitVec 3).toNat ≤ 65535 ∧ 65535 < 10 * 6553 + (6 : BitVec 3).toNat ∧
    10 * 6552 + (8 + (1 : BitVec 1).toNat) ≤ 65535 ∧
    65535 < 10 * 6553 + (8 + (0 : BitVec 1).toNat) ∧
    (placed [0x38] (.denominator (.note 48) 0)).currentPull.place = .denominator (.note 48) 0 ∧
    (placed [0x36] (.denominator .silent 6553)).currentPull.place = .denominator .silent 6553 ∧
    (placed [0x2E] (.dots .silent 43690 21845)).currentPull.place = .dots .silent 43690 21845 ∧
    43690 + 21845 ≤ 65535 ∧ 65535 < 60000 + 30000 := by decide

theorem witness_FetchSkipsExactlyTheSpaces :
    (scored [0x20, 0x20, 0x43]).eng.seqOff.toNat ≤ (scored [0x20, 0x20, 0x43]).eng.seqLen.toNat := by
  decide

/-- Both clauses at the edge of the width, and the empty number. -/
theorem witness_NumberReadsItsDigits :
    (let text : List Byte := [0x36, 0x35, 0x20, 0x35, 0x33, 0x35]
     let s := scored (text ++ [0x43])
     text.all (fun c => isDigit c || c == 0x20) = true ∧ s.shows text ∧
     s.charAfter text.length ≠ 0x20 ∧ isDigit (s.charAfter text.length) = false ∧
     decimalValue text = 65535) ∧
    (let text : List Byte := [0x36, 0x35, 0x35, 0x33, 0x36]
     let s := scored text
     s.shows text ∧ s.charAfter text.length ≠ 0x20 ∧
     isDigit (s.charAfter text.length) = false ∧ 65535 < decimalValue text) ∧
    (scored [0x43]).shows [] ∧ decimalValue [] = 0 := by decide

theorem witness_AccidentalsShiftThePitch :
    (let s := scored [0x2B, 0x20, 0x23, 0x2D, 0x2B]
     s.shows ([0x2B, 0x20, 0x23] ++ [0x2D]) ∧ s.charAfter 4 = 0x2B ∧
     solidCount [0x2D] ≠ 0) ∧
    (scored [0x43]).shows ([] ++ []) ∧ (scored [0x43]).charAfter 0 = 0x63 := by decide

/-- Both clauses: 1.75 times a quarter note, and a dotted whole note past the width. -/
theorem witness_DotsAddHalvedBonuses :
    (scored [0x2E, 0x20, 0x2E]).shows [0x2E, 0x20, 0x2E] ∧
    (scored [0x2E, 0x20, 0x2E]).charAfter 3 = 0x00 ∧
    dottedDuration 500 (solidCount [0x2E, 0x20, 0x2E]) = 875 ∧
    dottedDuration 60000 (solidCount [0x2E]) = 90000 := by decide

/-- Words at the edges of the clamp and of the two units. -/
theorem witness_plans :
    (plan State.reset.cfg 39 500 15).toOption = some ⟨40, .div8, 25000, 12500, 20⟩ ∧
    (plan State.reset.cfg 0x7FFF 100 15).toOption = some ⟨10000, .div1, 800, 400, 1000⟩ ∧
    (plan State.reset.cfg 0x818F 500 15).toOption = some ⟨0x8190, .div8, 25000, 12500, 20⟩ ∧
    (plan State.reset.cfg 0x87D0 500 15).toOption = some ⟨0x87D0, .div8, 5000, 2500, 100⟩ ∧
    (plan State.reset.cfg 0x87D1 500 0).toOption = some ⟨0x87D1, .div1, 39980, 0, 100⟩ ∧
    (plan State.reset.cfg 0xA70B 1000 1).toOption = some ⟨0xA70B, .div1, 8004, 0, 1000⟩ ∧
    500000 ≤ State.reset.cfg.toneClkHz.val := by decide

/-- The clock of 1000 counts per second, at which 10 000 Hz has a timer top of 0 (log entry 10). -/
theorem test_slowest_clock_has_a_zero_top :
    (plan { Config.reference with toneClkHz := ⟨1000, by decide⟩ } 10000 0 15).toOption =
      some ⟨10000, .div1, 0, 0, 0⟩ := by decide

/-- Products at both sides of the ceiling, and the 1000 Hz exception in both units. -/
theorem witness_PlanTimesOutOrFaults :
    6553 * min 10000 (max 40 (10000 : Half).toNat) < 65536000 ∧
    65536000 ≤ 6554 * min 10000 (max 40 (10000 : Half).toNat) ∧
    min 10000 (max 40 (1000 : Half).toNat) = 1000 ∧
    (max 400 ((0xA70B : Half).toNat - 32768) + 5) / 10 = 1000 := by decide

theorem witness_NoteFreqDoublesTheTable : noteFreq Config.reference 16 = 0x819C ∧
    noteFreq Config.reference 39 = 0x8614 ∧ noteFreq Config.reference 40 = 165 ∧
    noteFreq Config.reference 99 = 4979 ∧ noteFreq Config.reference 100 = 5274 ∧
    noteFreq Config.reference 111 = 9958 := by decide

/-- The four ways a tick goes. -/
theorem witness_TickCountsDownOrExpires :
    State.reset.eng.tickIE = false ∧ (sounding 1).eng.tickIE = true ∧
    (sounding 1).halted = false ∧ (sounding 1).eng.timeout ≠ 0 ∧ (sounding 0).eng.timeout = 0 ∧
    ¬((sounding 0).eng.seqActive = true ∧ (sounding 0).eng.mode = .automatic) ∧
    ((sounding 0).mapEng fun e => { e with seqActive := true }).eng.seqActive = true ∧
    ((sounding 0).mapEng fun e => { e with seqActive := true }).eng.mode = .automatic := by decide

theorem witness_ToneExpiresAfterItsTimeout : (sounding 3).pull = none ∧ (sounding 3).inputs = [] ∧
    (sounding 3).eng.tickIE = true ∧ (sounding 3).halted = false ∧
    ¬((sounding 3).eng.seqActive = true ∧ (sounding 3).eng.mode = .automatic) := by decide

theorem witness_StepStopsOnlyOnScoreWrite :
    State.hostWritesDuringPlayback { scored [0x43] with inputs := [.load 0 0x44] } ∧
    ¬State.hostWritesDuringPlayback State.reset :=
  ⟨⟨rfl, rfl, 0, 0x44, [], rfl⟩, fun h => absurd h.2.1 (by decide)⟩

theorem witness_HaltedEngineChangesNothing :
    (withEng fun e => e.recordFault .div0).halted = true ∧
    (withEng fun e => e.recordFault .div0).pull = none ∧
    (withEng fun e => e.recordFault .div0).inputs.head? ≠ some .reset := by decide

/-- A step that raises a fault: an illegal word from reset. -/
theorem witness_FaultsAreRolledBack :
    (coming [.command 0]).pull = none ∧ (coming [.command 0]).halted = false ∧
    ∃ t, step (coming [.command 0]) = .next t ∧ t.halted = true :=
  ⟨rfl, by decide, (coming []).raise .illegalCmd, rfl, by decide⟩

/-- The invariants hold at reset, from which a step leads on. -/
theorem witness_invariants : State.reset.FaultInv ∧ State.reset.musicOk = true ∧
    State.reset.SessionInv ∧ step State.reset = .next State.reset :=
  ⟨⟨.inl ⟨rfl, rfl⟩, fun c h => by cases h⟩, by decide,
    ⟨rfl, by decide, rfl, fun h => absurd rfl h, fun _ h => absurd h.2 (by decide), by decide⟩, rfl⟩

theorem witness_OnlyQueriesAnswerAndOnlyPlayModeSetsMode :
    State.reset.pull = none ∧
    exec (.stop) State.reset = .next (State.reset.mapEng fun e => e.stop State.reset.cfg) :=
  ⟨rfl, rfl⟩

/-- The clause over steps: an expiry that pulls, and a command that is none of the three. -/
theorem witness_OnlyQueriesAnswerAndOnlyPlayModeSetsMode_step :
    (let s := { scored [0x43] with eng := { (scored [0x43]).eng with tickIE := true } }
     s.pull = none ∧ s.inputs.head? ≠ some .reset ∧ s.nextCommand = none ∧
     s.eng.pullsAtExpiry = true ∧ (engOf (step s)).map (fun e => e.finished) = some false) ∧
    (coming [.command 0x070000000000]).nextCommand = some .stop := by decide

/-- A settings number at the edge of its width in a pull in progress, which the step turns into
`NOTE_TYPE`. -/
theorem witness_DurationFollowsTempoAndDenominator :
    (placed [0x20, 0x43] (.number .length 65535)).musicOk = true ∧
    (placed [0x20, 0x43] (.number .length 65536)).musicOk = false ∧
    (engOf (exec .noteC (placed [0x43] (.number .length 65535)))).map
      (fun e => (e.noteType.toNat, e.duration.toNat)) = some (65535, 0) := by decide

theorem witness_TraceOnlyGrows : State.reset.pull = none ∧
    State.reset.inputs.head? ≠ some .reset ∧ step State.reset = .next State.reset :=
  ⟨rfl, by decide, rfl⟩

theorem witness_OnlyTheHostWritesTheScoreMemory :
    (coming [.load 5 0x43]).mem.wf = true ∧
    step (coming [.load 5 0x43]) = .next { State.reset with mem := [(5, 0x43)] } :=
  ⟨rfl, rfl⟩

/-- Two memories that agree on the score and differ beyond it. -/
theorem witness_BytesOutsideTheScoreAreNeverRead :
    (∀ o : Half, ({ scored [] with mem := [(7, 0x43)] } : State).byteAt o = (scored []).byteAt o) ∧
    ∃ t, exec .playCheck (scored []) = .next t :=
  ⟨fun o => by simp [State.byteAt, scored], _, rfl⟩

end Sys2Proof.Tests
end

section
/-! Proofs about the engine's scope (00_scope.md): the steps of the agents, the timer top of a plan, and the
rollback of a step that faults. -/

namespace Sys2Proof.Machine

open Sys2Proof

/-! ## A step takes the next input (R5, R144) -/

theorem step_of_no_pull {s : State} (h : s.pull = none) : step s = agentStep s := by
  simp [step_eq, h]

theorem agentStep_of_nil {s : State} (h : s.inputs = []) : agentStep s = tick s := by
  simp [agentStep, h]

theorem agentStep_of_cons {s : State} {input : Input} {later : List Input}
    (h : s.inputs = input :: later) : agentStep s = takeInput input { s with inputs := later } := by
  simp [agentStep, h]

theorem placeByte_of_inactive {s : State} (addr : Half) (byte : Byte) (h : s.eng.seqActive = false) :
    placeByte addr byte s = .next { s with mem := s.mem.write addr.toNat byte } := by
  simp [placeByte, h]

/-- Reset rewrites the registers and nothing else where no pull is in progress (R155). -/
theorem restart_of_no_pull {s : State} (h : s.pull = none) :
    s.restart = { s with eng := Engine.reset s.cfg } := by
  rw [State.restart, ← h]

/-- Settles O6: a step is `agentStep`, whose cases are those of the list of inputs. -/
theorem stepRunsTheNextInput : Obligations.StepRunsTheNextInput := by
  intro s hp
  rw [step_of_no_pull hp]
  refine ⟨fun w later h => ?command, fun later h => ?tick, fun addr byte later h ha => ?load,
    fun later h => ?reset, agentStep_of_nil⟩
  case command => exact agentStep_of_cons h
  case tick => exact agentStep_of_cons h
  case load =>
    exact ⟨(agentStep_of_cons h).trans (placeByte_of_inactive addr byte ha),
      fun hwf a => Memory.read_write addr.toNat byte a hwf⟩
  case reset =>
    have hr : ({ s with inputs := later } : State).restart = _ := restart_of_no_pull hp
    exact (agentStep_of_cons h).trans (congrArg _ hr)

/-! ## The timer top of a plan (R88 to R91) -/

/-- A clamped frequency in the unit of its word: 40 to 10 000 Hz, or 400 to 32 767 tenths (R88, R89). -/
def InUnit (mult f : Nat) : Prop :=
  (mult = 1 ∧ 40 ≤ f ∧ f ≤ 10000) ∨ (mult = 10 ∧ 400 ≤ f ∧ f ≤ 32767)

theorem clampFreq_inUnit (fw : Half) :
    InUnit (freqMult fw) (clampFreq (freqMult fw) (freqValue fw)) := by
  rcases clampFreq_range fw with ⟨hm, h⟩ | ⟨hm, h⟩ <;> rw [hm]
  · exact .inl ⟨rfl, h⟩
  · exact .inr ⟨rfl, h⟩

/-- The tone part of a plan in terms of the clamped frequency and its unit (R85, R89 to R91). -/
theorem plan_tone {cfg : Config} {fw d : Half} {v : Byte} {p : ToneParams}
    (h : plan cfg fw d v = .ok p) :
    ∃ mult f, InUnit mult f ∧ p.freq = freqWord mult f ∧ p.prescale = selectPrescale mult f ∧
      p.top = BitVec.ofNat 16 (timerTop (clockRate cfg (selectPrescale mult f)) mult f) := by
  rcases plan_cases cfg fw d v with ⟨t, _, _, hp⟩ | hp
  · obtain rfl := Except.ok.inj (hp.symm.trans h)
    exact ⟨_, _, clampFreq_inUnit fw, rfl, rfl, rfl⟩
  · cases hp.symm.trans h

theorem freqWord_hz_toNat {f : Nat} (h : f ≤ 10000) : (freqWord 1 f).toNat = f :=
  Nat.mod_eq_of_lt (by omega)

/-- A word in tenths has bit 15 set over the 15 bits of its number (R88). -/
theorem freqWord_tenths_toNat {f : Nat} (h : f ≤ 32767) : (freqWord 10 f).toNat = 32768 + f := by
  have hf : (BitVec.ofNat 16 f).toNat = f := Nat.mod_eq_of_lt (by omega)
  simp only [freqWord, if_true, BitVec.toNat_or, hf]
  exact (Nat.two_pow_add_eq_or_of_lt (i := 15) (by omega) 1).symm

/-- A frequency word gives its unit back: bit 15 is set for tenths only (R88). -/
theorem freqWord_unit {mult f : Nat} (h : InUnit mult f) :
    (if (freqWord mult f).getLsbD 15 then 10 else 1) = mult := by
  rw [BitVec.getLsbD_last (freqWord mult f)]
  rcases h with ⟨rfl, _, hf⟩ | ⟨rfl, _, hf⟩
  · rw [freqWord_hz_toNat hf, decide_eq_false (by omega)]; rfl
  · rw [freqWord_tenths_toNat hf, decide_eq_true (by omega)]; rfl

/-- A frequency word gives its frequency back in the 15 bits below its unit (R88). -/
theorem freqWord_value {mult f : Nat} (h : InUnit mult f) : (freqWord mult f).toNat % 32768 = f := by
  rcases h with ⟨rfl, _, hf⟩ | ⟨rfl, _, hf⟩
  · rw [freqWord_hz_toNat hf]; omega
  · rw [freqWord_tenths_toNat hf]; omega

theorem clockRate_selectPrescale (cfg : Config) (mult f : Nat) :
    clockRate cfg (selectPrescale mult f) =
      if 200 * mult < f then cfg.toneClkHz.val else cfg.toneClkHz.val / 8 := by
  unfold selectPrescale; split <;> rfl

/-- The source switch at 200 Hz keeps the timer top within 16 bits at the highest legal clock (R7, R90,
R91). -/
theorem timerTop_fits (cfg : Config) {mult f : Nat} (h : InUnit mult f) :
    timerTop (clockRate cfg (selectPrescale mult f)) mult f < 65536 := by
  obtain ⟨_, hclk⟩ := cfg.toneClkHz.property
  refine Nat.div_lt_of_lt_mul ?_
  rw [clockRate_selectPrescale]
  rcases h with ⟨rfl, _, _⟩ | ⟨rfl, _, _⟩ <;> split <;> omega

/-- From 5000 counts per second on no frequency rounds to a timer top of 0 (R7, R91). -/
theorem timerTop_pos {cfg : Config} (hclk : 5000 ≤ cfg.toneClkHz.val) {mult f : Nat}
    (h : InUnit mult f) : 0 < timerTop (clockRate cfg (selectPrescale mult f)) mult f := by
  rw [clockRate_selectPrescale]
  rcases h with ⟨rfl, _, _⟩ | ⟨rfl, _, _⟩ <;> split <;> exact Nat.div_pos (by omega) (by omega)

/-- The timer top of a plan is the unbounded quotient of R91: no bit is lost. -/
theorem top_toNat (cfg : Config) {mult f : Nat} (h : InUnit mult f) :
    (BitVec.ofNat 16 (timerTop (clockRate cfg (selectPrescale mult f)) mult f)).toNat =
      timerTop (clockRate cfg (selectPrescale mult f)) mult f :=
  Nat.mod_eq_of_lt (timerTop_fits cfg h)

/-- Settles O39: the frequency word gives the unit and the frequency back, and the top fits 16 bits. -/
theorem planRoundsTheTimerTop : Obligations.PlanRoundsTheTimerTop := by
  intro cfg fw d v p h
  obtain ⟨mult, f, hu, hfreq, hpre, htop⟩ := plan_tone h
  have hval := top_toNat cfg hu
  rw [hfreq, hpre, htop, freqWord_unit hu, freqWord_value hu]
  refine ⟨rfl, ?rounded, fun hclk hzero => ?nonzero⟩
  case rounded => rw [hval, clockRate_selectPrescale]; rfl
  case nonzero =>
    rw [hzero] at hval
    exact absurd hval (timerTop_pos hclk hu).ne

/-- The slowest engine R7 makes legal. -/
def slowestClock : Config := { Config.reference with toneClkHz := ⟨1000, by decide⟩ }

/-- At 1000 counts per second a period of 10 000 Hz is a tenth of a count, which rounds to 0 (R91). -/
theorem plan_slowestClock_10kHz : plan slowestClock 10000 0 0 =
    .ok { freq := 10000, prescale := .div1, top := 0, duty := 0, timeout := 0 } := rfl

/-- Refutes O45: 10 000 Hz on the slowest legal clock is planned with a timer top of 0. -/
theorem not_everyLegalClockGivesANonzeroTop : ¬ Obligations.EveryLegalClockGivesANonzeroTop :=
  fun h => absurd (h _ _ _ _ _ plan_slowestClock_10kHz) (by decide)

/-! ## What a score byte leaves unchanged (R11, R138) -/

/-- `t` comes from `s` without a fault: the parameters, the sequence memory, the inputs and the fault
registers are those of `s`, and a pull still in progress is one of `s`, with the same rollback. -/
structure SameFrame (s t : State) : Prop where
  cfg : t.cfg = s.cfg
  mem : t.mem = s.mem
  inputs : t.inputs = s.inputs
  fault : t.eng.fault = s.eng.fault
  faultCause : t.eng.faultCause = s.eng.faultCause
  entry : ∀ c, t.pull = some c → ∃ c', s.pull = some c' ∧ c.entry = c'.entry

/-- What a success of `f` leaves unchanged is the frame. -/
def KeepsFrame (f : State → Except FaultCode State) : Prop :=
  ∀ s t, f s = .ok t → SameFrame s t

theorem SameFrame.refl (s : State) : SameFrame s s := ⟨rfl, rfl, rfl, rfl, rfl, fun c h => ⟨c, h, rfl⟩⟩

theorem SameFrame.trans {s t u : State} (h : SameFrame s t) (k : SameFrame t u) : SameFrame s u where
  cfg := k.cfg.trans h.cfg
  mem := k.mem.trans h.mem
  inputs := k.inputs.trans h.inputs
  fault := k.fault.trans h.fault
  faultCause := k.faultCause.trans h.faultCause
  entry c hc := by
    obtain ⟨c', hc', hcc'⟩ := k.entry c hc
    obtain ⟨c'', hc'', hcc''⟩ := h.entry c' hc'
    exact ⟨c'', hc'', hcc'.trans hcc''⟩

theorem CursorMoved.sameFrame {s t : State} (h : CursorMoved s t) : SameFrame s t where
  cfg := h.cfg
  mem := h.mem
  inputs := h.inputs
  fault := by rw [h.eng]
  faultCause := by rw [h.eng]
  entry c hc := ⟨c, h.pull ▸ hc, rfl⟩

theorem sameFrame_advance (s : State) : SameFrame s s.advance := (advance_moves s).sameFrame

theorem sameFrame_mapEng {s : State} {f : Engine → Engine} (hf : (f s.eng).fault = s.eng.fault)
    (hc : (f s.eng).faultCause = s.eng.faultCause) : SameFrame s (s.mapEng f) :=
  ⟨rfl, rfl, rfl, hf, hc, fun c h => ⟨c, h, rfl⟩⟩

theorem sameFrame_mapPull {s : State} {f : PullState → PullState} (hf : ∀ c, (f c).entry = c.entry) :
    SameFrame s (s.mapPull f) where
  cfg := rfl
  mem := rfl
  inputs := rfl
  fault := rfl
  faultCause := rfl
  entry c hc := by
    obtain ⟨c', hc', rfl⟩ := Option.map_eq_some_iff.1 hc
    exact ⟨c', hc', hf c'⟩

theorem sameFrame_atPlace (s : State) (p : Place) : SameFrame s (s.atPlace p) :=
  sameFrame_mapPull fun _ => rfl

theorem sameFrame_withTmpOct (s : State) (oct : Int) : SameFrame s (s.withTmpOct oct) :=
  sameFrame_mapPull fun _ => rfl

theorem sameFrame_closePull (s : State) : SameFrame s s.closePull :=
  ⟨rfl, rfl, rfl, rfl, rfl, fun _ h => nomatch h⟩

/-- A frame survives a fault: raising it in `t` is raising it where the pull began. -/
theorem SameFrame.raise_eq {s t : State} {c : PullState} (h : SameFrame s t) (hc : t.pull = some c)
    (code : FaultCode) : t.raise code = s.raise code := by
  obtain ⟨c', hc', hcc'⟩ := h.entry c hc
  simp [State.raise, State.origin, hc, hc', h.cfg, h.mem, h.inputs, hcc']

/-! ### Note tails -/

theorem issueItem_keepsFrame (p : Pitch) (d : Nat) : KeepsFrame (issueItem p d) := by
  intro s t h
  unfold issueItem at h
  split at h
  · cases h
  · cases h
    exact (sameFrame_mapEng (by simp) (by simp)).trans (sameFrame_closePull _)

theorem tailFromDots_keepsFrame (p : Pitch) (d bonus : Nat) : KeepsFrame (tailFromDots p d bonus) := by
  intro s t h
  unfold tailFromDots at h
  split at h
  · cases h
  · rename_i hr
    exact (readDots_moves hr).sameFrame.trans (issueItem_keepsFrame p _ _ t h)

theorem tailFromDenominator_keepsFrame (p : Pitch) (n : Nat) :
    KeepsFrame (tailFromDenominator p n) := by
  intro s t h
  unfold tailFromDenominator at h
  split at h
  · cases h
  · rename_i hr
    split at h
    · cases h
    · exact (readNumber_moves hr).sameFrame.trans (tailFromDots_keepsFrame p _ _ _ t h)

theorem tailFromDuration_keepsFrame (p : Pitch) : KeepsFrame (tailFromDuration p) := by
  intro s t h
  unfold tailFromDuration at h
  split at h
  · exact tailFromDenominator_keepsFrame p 0 s t h
  · exact tailFromDots_keepsFrame p _ _ s t h

theorem tailFromFlats_keepsFrame (p : Pitch) : KeepsFrame (tailFromFlats p) := fun s t h =>
  (readFlats_moves p s).sameFrame.trans (tailFromDuration_keepsFrame _ _ t h)

/-- The tail of a note or a rest letter keeps the frame (R121 to R125). -/
theorem tailFromSharps_keepsFrame (p : Pitch) : KeepsFrame (tailFromSharps p) := fun s t h =>
  (readSharps_moves p s).sameFrame.trans (tailFromFlats_keepsFrame _ _ t h)

/-! ### Settings and places -/

theorem applySetting_keepsFrame (setting : Setting) (n : Nat) : KeepsFrame (applySetting setting n) := by
  intro s t h
  refine (sameFrame_atPlace s .tokens).trans ?_
  rcases applySetting_ok h with ⟨_, rfl⟩ | ⟨_, _, _, rfl⟩ | ⟨_, _, rfl⟩ | ⟨_, rfl⟩
  · exact (sameFrame_mapEng rfl rfl).trans (sameFrame_withTmpOct _ _)
  all_goals exact sameFrame_mapEng rfl rfl

theorem settingFromNumber_keepsFrame (setting : Setting) (n : Nat) :
    KeepsFrame (settingFromNumber setting n) := by
  intro s t h
  unfold settingFromNumber at h
  split at h
  · cases h
  · rename_i hr
    exact (readNumber_moves hr).sameFrame.trans (applySetting_keepsFrame setting _ _ t h)

theorem sameFrame_endOfScore (s : State) : SameFrame s (endOfScore s) :=
  (sameFrame_mapEng (by simp) (by simp)).trans (sameFrame_closePull _)

/-- Where a byte does not continue the place it stands at, the rest of the token keeps the frame (R73). -/
theorem resumeAt_keepsFrame (place : Place) : KeepsFrame (resumeAt place) := by
  cases place with
  | tokens => rintro s _ ⟨⟩; exact (sameFrame_advance s).trans (sameFrame_endOfScore _)
  | number setting n => exact settingFromNumber_keepsFrame setting n
  | sharps p => exact tailFromSharps_keepsFrame p
  | flats p => exact tailFromFlats_keepsFrame p
  | denominator p n => exact tailFromDenominator_keepsFrame p n
  | dots p d bonus => exact tailFromDots_keepsFrame p d bonus

/-! ### Score bytes -/

/-- Wherever a place accepts the byte, its effect keeps the frame. -/
def EffectKeepsFrame (effect : Place → Option (State → Except FaultCode State)) : Prop :=
  ∀ place f, effect place = some f → KeepsFrame f

theorem sharpEffect_keepsFrame : EffectKeepsFrame sharpEffect := by
  intro place f h
  cases place <;> cases h
  rintro s _ ⟨⟩
  exact sameFrame_atPlace s _

theorem flatEffect_keepsFrame : EffectKeepsFrame flatEffect := by
  intro place f h
  cases place <;> cases h <;> rintro s _ ⟨⟩ <;> exact sameFrame_atPlace s _

theorem digitEffect_keepsFrame (v : Nat) : EffectKeepsFrame (digitEffect v) := by
  intro place f h s t ht
  rcases digitEffect_ok h ht with ⟨_, _, _, _, rfl⟩ | ⟨_, _, _, _, rfl⟩ <;>
    exact sameFrame_atPlace s _

theorem dotEffect_keepsFrame : EffectKeepsFrame dotEffect := by
  intro place f h
  cases place <;> cases h
  intro s t ht
  simp only at ht
  split at ht <;> cases ht
  exact sameFrame_atPlace s _

/-- `t` comes from `s` either by a fault raised in `s` or with the frame of `s`: all that the part of an
agent step inside a pull can do (R138). -/
def RaisedOrFramed (s t : State) : Prop := (∃ code, t = s.raise code) ∨ SameFrame s t

theorem raise_opened (s : State) (code : FaultCode) : s.opened.raise code = s.raise code := by
  cases h : s.pull <;> simp [State.raise, State.origin, State.currentPull, h]

theorem opened_of_pull {s : State} {c : PullState} (h : s.pull = some c) : s.opened = s := by
  rw [State.opened, State.currentPull_of_some s c h, ← h]

theorem RaisedOrFramed.of_frame {s t u : State} {c : PullState} (h : SameFrame s t) (hc : t.pull = some c)
    (k : RaisedOrFramed t u) : RaisedOrFramed s u := by
  rcases k with ⟨code, rfl⟩ | k
  · exact .inl ⟨code, h.raise_eq hc code⟩
  · exact .inr (h.trans k)

theorem SameFrame.halted_eq {s t : State} (h : SameFrame s t) : t.halted = s.halted := by
  simp only [State.halted, h.fault]

/-- A part of a live step that halts the engine has raised a fault (R138). -/
theorem RaisedOrFramed.raised {s t : State} (h : RaisedOrFramed s t) (hs : s.halted = false)
    (ht : t.halted = true) : ∃ code, t = s.raise code := by
  rcases h with hr | hf
  · exact hr
  · cases hs.symm.trans (hf.halted_eq.symm.trans ht)

theorem runByte_raisedOrFramed {effect : Place → Option (State → Except FaultCode State)}
    (he : EffectKeepsFrame effect) {s t : State} (hs : s.halted = false)
    (h : runByte effect s = .next t) : RaisedOrFramed s.opened t := by
  rcases runByte_next h with ⟨hh, _⟩ | ⟨_, ⟨code, hraise⟩ | ⟨f, hf, hft⟩ | ⟨_, hr⟩⟩
  · cases hs.symm.trans hh
  · exact .inl ⟨code, hraise.trans (raise_opened s code).symm⟩
  · exact .inr ((sameFrame_advance _).trans (he _ f hf _ t hft))
  · exact .inr (resumeAt_keepsFrame _ _ t hr)

theorem runToken_raisedOrFramed {f : State → Except FaultCode State} (hf : KeepsFrame f)
    {s t : State} (hs : s.halted = false) (h : runToken f s = .next t) :
    RaisedOrFramed s.opened t := by
  refine runByte_raisedOrFramed (fun place g hg => ?_) hs h
  cases place <;> cases hg
  exact hf

theorem noteToken_keepsFrame (pc : Nat) : KeepsFrame (noteToken pc) := fun s t h =>
  tailFromSharps_keepsFrame _ s t h

theorem settingToken_keepsFrame (setting : Setting) : KeepsFrame (settingToken setting) :=
  settingFromNumber_keepsFrame setting 0

/-- The second letter of `ML` or `MS` is consumed and the style written, which is all (R117). -/
theorem style_keepsFrame {f : Engine → Engine} (hf : ∀ e, (f e).fault = e.fault)
    (hc : ∀ e, (f e).faultCause = e.faultCause) :
    KeepsFrame fun s => .ok (s.consumeSecond.mapEng f) := by
  rintro s _ ⟨⟩
  exact (fetchAdvance_moves s).sameFrame.trans (sameFrame_mapEng (hf _) (hc _))

theorem execSpace_raisedOrFramed {s t : State} (hs : s.halted = false) (h : execSpace s = .next t) :
    RaisedOrFramed s.opened t := by
  rw [execSpace, unlessHalted_of_live hs] at h
  cases h
  exact .inr ⟨rfl, rfl, rfl, rfl, rfl,
    fun c hc => ⟨c, (congrArg State.pull (opened_of_pull (s := s) hc)).trans hc, rfl⟩⟩

/-- Everything a score byte can do in a live state: a fault, rolled back to where the step began, or an
effect within the frame (R11, R100, R138). -/
theorem exec_score_raisedOrFramed {i : Instr} (hi : Laws.Shape.isCommand i = false) {s t : State}
    (hs : s.halted = false) (h : exec i s = .next t) : RaisedOrFramed s.opened t := by
  cases i with
  | playFreq | playNote | playSeq | playMode | playCheck | isPlaying | stop | illegalCmd => cases hi
  | octaveUp | octaveDown =>
    refine runToken_raisedOrFramed ?_ hs h
    rintro u _ ⟨⟩
    exact sameFrame_withTmpOct u _
  | noteA | noteB | noteC | noteD | noteE | noteF | noteG =>
    exact runToken_raisedOrFramed (noteToken_keepsFrame _) hs h
  | rest => exact runToken_raisedOrFramed (tailFromSharps_keepsFrame _) hs h
  | setOctave | setTempo | setLength | setVolume =>
    exact runToken_raisedOrFramed (settingToken_keepsFrame _) hs h
  | legato =>
    exact runToken_raisedOrFramed
      (style_keepsFrame Engine.setLegato_fault Engine.setLegato_faultCause) hs h
  | staccato =>
    exact runToken_raisedOrFramed
      (style_keepsFrame Engine.setStaccato_fault Engine.setStaccato_faultCause) hs h
  | resetMusic =>
    refine runToken_raisedOrFramed ?_ hs h
    rintro u _ ⟨⟩
    exact (sameFrame_mapEng rfl rfl).trans (sameFrame_withTmpOct _ _)
  | sharpPlus | sharpHash => exact runByte_raisedOrFramed sharpEffect_keepsFrame hs h
  | flat => exact runByte_raisedOrFramed flatEffect_keepsFrame hs h
  | digitLow | digitHigh => exact runByte_raisedOrFramed (digitEffect_keepsFrame _) hs h
  | dot => exact runByte_raisedOrFramed dotEffect_keepsFrame hs h
  | space => exact execSpace_raisedOrFramed hs h
  | terminator =>
    refine runToken_raisedOrFramed ?_ hs h
    rintro u _ ⟨⟩
    exact sameFrame_endOfScore u

/-- A pull's loop that goes on has run a score byte's own meaning, and no host command. -/
theorem execToken_next {i : Instr} {s t : State} (h : execToken i s = .next t) :
    Laws.Shape.isCommand i = false ∧ exec i s = .next t := by
  cases i with
  | playFreq | playNote | playSeq | playMode | playCheck | isPlaying | stop | illegalCmd => cases h
  | _ => exact ⟨rfl, h⟩

/-! ## A pull faults or keeps the frame (R100, R138) -/

theorem pullLoop_raisedOrFramed {k : Nat} {s t : State} (hs : s.halted = false)
    (h : pullLoop k s = .next t) : RaisedOrFramed s t := by
  refine pullLoop_keeps (RaisedOrFramed s) (fun u v hu hsu huv => ?_) k s t (.inr (.refl s)) h
  obtain ⟨c, hc⟩ := Option.isSome_iff_exists.1 hu
  rcases hsu with ⟨code, rfl⟩ | hsu
  · cases hu
  · obtain ⟨hi, hexec⟩ := execToken_next huv
    have hv := exec_score_raisedOrFramed hi (hsu.halted_eq.trans hs) hexec
    rw [opened_of_pull hc] at hv
    exact hv.of_frame hsu hc

theorem playPendingRest_keepsFrame : KeepsFrame playPendingRest := by
  intro s t h
  rw [playPendingRest_eq] at h
  cases h
  exact (sameFrame_mapEng rfl rfl).trans (sameFrame_closePull _)

theorem runPull_raisedOrFramed {origin : Engine} {s t : State} (hs : s.halted = false)
    (h : runPull origin s = .next t) : RaisedOrFramed (s.openPull origin) t := by
  rcases runPull_next h with ⟨_, hr⟩ | ⟨_, hl⟩
  · exact .inr (playPendingRest_keepsFrame _ t hr)
  · exact pullLoop_raisedOrFramed hs hl

/-! ## An agent step that halts has raised a fault (R11, R138) -/

theorem halted_mapEng {s : State} {f : Engine → Engine} (hs : s.halted = false)
    (hf : (f s.eng).fault = s.eng.fault) : (s.mapEng f).halted = false := by
  simpa only [State.halted, State.mapEng_eng, hf] using hs

/-- A fault in a pull is raised in the state before the agent step, whatever registers the step wrote
before it pulled (R138). -/
theorem runPull_raised {s t : State} {f : Engine → Engine} (hn : s.pull = none)
    (hs : s.halted = false) (hf : (f s.eng).fault = s.eng.fault)
    (h : runPull s.eng (s.mapEng f) = .next t) (ht : t.halted = true) :
    ∃ code, t = s.raise code := by
  have hlive : (s.mapEng f).halted = false := halted_mapEng hs hf
  obtain ⟨code, rfl⟩ := (runPull_raisedOrFramed hlive h).raised hlive ht
  exact ⟨code, by simp [State.raise, State.origin, hn]⟩

theorem pullIfDue_raised {s t : State} {f : Engine → Engine} (hn : s.pull = none)
    (hs : s.halted = false) (hf : (f s.eng).fault = s.eng.fault)
    (h : pullIfDue s.eng (s.mapEng f) = .next t) (ht : t.halted = true) :
    ∃ code, t = s.raise code := by
  unfold pullIfDue at h
  split at h
  · exact runPull_raised hn hs hf h ht
  · cases h
    cases (halted_mapEng hs hf).symm.trans ht

theorem playPlanned_raised {s t : State} {planned : Except FaultCode ToneParams}
    (hs : s.halted = false) (h : s.settle (playPlanned s planned) = .next t)
    (ht : t.halted = true) : ∃ code, t = s.raise code := by
  rcases settle_next h with hok | ⟨code, _, hraise⟩
  · cases planned <;> cases hok
    cases (halted_mapEng hs rfl).symm.trans ht
  · exact ⟨code, hraise⟩

/-- A halted state gets no answer of `PLAY_CHECK` (R131). -/
theorem answerActive_of_halted {s : State} (h : s.answerActive.halted = true) : s.answerActive = s := by
  unfold State.answerActive at h ⊢
  split at h
  · rename_i hh; exact if_pos hh
  · rename_i hh; exact absurd h hh

theorem execPlayCheck_raised {s t : State} (hn : s.pull = none) (hs : s.halted = false)
    (h : execPlayCheck s = .next t) (ht : t.halted = true) : ∃ code, t = s.raise code := by
  rw [execPlayCheck, unlessHalted_of_live hs] at h
  split at h <;> cases h
  rename_i u hu
  have hue := answerActive_of_halted ht
  rw [hue] at ht ⊢
  exact pullIfDue_raised (f := id) hn hs rfl hu ht

/-- Every instruction that halts a live engine with no pull in progress has raised a fault in the state it
ran in (R138). -/
theorem exec_raised {i : Instr} {s t : State} (hn : s.pull = none) (hs : s.halted = false)
    (h : exec i s = .next t) (ht : t.halted = true) : ∃ code, t = s.raise code := by
  cases i with
  | playFreq | playNote => exact playPlanned_raised hs ((unlessHalted_of_live hs _).symm.trans h) ht
  | playSeq => exact runPull_raised hn hs rfl ((unlessHalted_of_live hs _).symm.trans h) ht
  | playMode mode =>
    have hm := (unlessHalted_of_live hs _).symm.trans h
    cases mode with
    | automatic => exact pullIfDue_raised hn hs rfl hm ht
    | checkDriven => cases hm; cases (halted_mapEng hs rfl).symm.trans ht
  | playCheck => exact execPlayCheck_raised hn hs h ht
  | isPlaying | stop =>
    cases (unlessHalted_of_live hs _).symm.trans h
    cases (halted_mapEng hs rfl).symm.trans ht
  | illegalCmd =>
    cases (unlessHalted_of_live hs _).symm.trans h
    exact ⟨.illegalCmd, rfl⟩
  | _ =>
    obtain ⟨code, rfl⟩ := (exec_score_raisedOrFramed rfl hs h).raised hs ht
    exact ⟨code, raise_opened s code⟩

theorem tick_raised {s t : State} (hn : s.pull = none) (hs : s.halted = false)
    (h : tick s = .next t) (ht : t.halted = true) : ∃ code, t = s.raise code := by
  rcases tick_next h with ⟨_, rfl⟩ | ⟨_, _, rfl⟩ | ⟨_, _, _, rfl⟩ | ⟨_, _, _, hpull⟩
  · cases hs.symm.trans ht
  · cases (halted_mapEng hs rfl).symm.trans ht
  · cases (halted_mapEng hs rfl).symm.trans ht
  · exact runPull_raised hn hs rfl hpull ht

theorem takeInput_raised {input : Input} {s t : State} (hn : s.pull = none) (hs : s.halted = false)
    (h : takeInput input s = .next t) (ht : t.halted = true) : ∃ code, t = s.raise code := by
  cases input with
  | command w => exact exec_raised hn hs h ht
  | tick => exact tick_raised hn hs h ht
  | load addr byte =>
    obtain ⟨_, rfl⟩ := placeByte_next h
    cases hs.symm.trans ht
  | reset => cases h; cases ht

/-- An agent step that halts a live engine has raised a fault in the state it began in, the taken input
aside (R138, R145). -/
theorem agentStep_raised {s t : State} (hn : s.pull = none) (hs : s.halted = false)
    (h : agentStep s = .next t) (ht : t.halted = true) :
    ∃ code, t = ({ s with inputs := t.inputs } : State).raise code := by
  cases hi : s.inputs with
  | nil =>
    rw [agentStep_of_nil hi] at h
    obtain ⟨code, rfl⟩ := tick_raised hn hs h ht
    exact ⟨code, rfl⟩
  | cons input later =>
    rw [agentStep_of_cons hi] at h
    obtain ⟨code, rfl⟩ := takeInput_raised (s := { s with inputs := later }) hn hs h ht
    exact ⟨code, rfl⟩

/-- Settles O51: a step that halts a live engine is `State.raise` of the state before it, by the case split
over the agents and, inside a pull, the frame that every score byte keeps. -/
theorem faultsAreRolledBack : Obligations.FaultsAreRolledBack := by
  intro s t hn hs h ht
  rw [step_of_no_pull hn] at h
  obtain ⟨code, hraise⟩ := agentStep_raised hn hs h ht
  have horigin : ({ s with inputs := t.inputs } : State).origin = s.eng := State.origin_of_none _ hn
  rw [hraise]
  exact ⟨code, congrArg (Engine.recordFault · code) horigin, rfl, rfl, rfl⟩

end Sys2Proof.Machine
end

section
/-! Proofs about the engine's state (10_state.md): every write an agent step can make to the registers, said
once as relations between registers before and after, and the invariants derived from them. -/

namespace Sys2Proof.Machine

open Sys2Proof

/-! ## What a pull writes (R100 to R125) -/

/-- One write to the registers by which a pull reads on in the score (R54, R113 to R118). -/
inductive Engine.Reads : Engine → Engine → Prop
  | cursor (e : Engine) (off : Half)
      (within : e.seqOff.toNat ≤ e.seqLen.toNat → off.toNat ≤ e.seqLen.toNat) :
      Engine.Reads e { e with seqOff := off }
  | octave (e : Engine) (n : Half) : Engine.Reads e { e with octave := n }
  | tempo (e : Engine) (n : Nat) (fits : wholeNoteMs n ≤ 65535) :
      Engine.Reads e
        { e with
          wholeMs := BitVec.ofNat 16 (wholeNoteMs n)
          duration := BitVec.ofNat 16 (wholeNoteMs n / e.noteType.toNat) }
  | length (e : Engine) (n : Nat) (positive : n ≠ 0) (fits : n ≤ 65535) :
      Engine.Reads e
        { e with
          noteType := BitVec.ofNat 16 n
          duration := BitVec.ofNat 16 (e.wholeMs.toNat / n) }
  | volume (e : Engine) (v : BitVec 4) : Engine.Reads e { e with volume := v }
  | legato (e : Engine) : Engine.Reads e e.setLegato
  | staccato (e : Engine) : Engine.Reads e e.setStaccato
  | resetMusic (e : Engine) : Engine.Reads e e.resetMusic

/-- The registers after some writes of a pull that reads on. -/
abbrev Engine.ReadsOn : Engine → Engine → Prop := Relation.ReflTransGen Engine.Reads

/-- The write that ends a pull: a note or rest issued, or the end of the sequence (R119, R124, R125). -/
inductive Engine.Ends (cfg : Config) : Engine → Engine → Prop
  | item (e : Engine) (d : Nat) {pitch : Pitch} {dur : Half} {vol : Byte} {params : ToneParams}
      (planned : planNote cfg pitch dur vol = .ok params) :
      Engine.Ends cfg e ((e.withSplit d).toneStart params)
  | score (e : Engine) : Engine.Ends cfg e (e.endSequence cfg)

/-- The registers after the pending staccato rest began to play (R101). -/
def Engine.playRest (e : Engine) (cfg : Config) : Engine :=
  ({ e with staccRest := 0 } : Engine).toneStart
    { freq := 1000, prescale := .div1, top := baselineTop cfg, duty := 0, timeout := e.staccRest }

/-- Everything a whole pull writes where it does not fault (R100, R101). -/
inductive Engine.Pulls (cfg : Config) : Engine → Engine → Prop
  | rest {e : Engine} : Engine.Pulls cfg e (e.playRest cfg)
  | score {e mid e' : Engine} (noRest : e.restPending = false) (reads : e.ReadsOn mid)
      (ends : mid.Ends cfg e') : Engine.Pulls cfg e e'

/-- What every write of a pull that reads on keeps, all of them keep. -/
theorem Engine.ReadsOn.keeps {P : Engine → Prop} (step : ∀ e e' : Engine, e.Reads e' → P e → P e')
    {e e' : Engine} (h : e.ReadsOn e') (he : P e) : P e' := by
  induction h with
  | refl => exact he
  | tail _ hlast ih => exact step _ _ hlast ih

theorem CursorMoved.reads {s t : State} (h : CursorMoved s t) : s.eng.Reads t.eng := by
  rw [h.eng]
  exact .cursor _ _ fun hs => (h.within hs).2

theorem CursorMoved.readsOn {s t : State} (h : CursorMoved s t) : s.eng.ReadsOn t.eng :=
  .single h.reads

/-! ## What a score byte writes -/

/-- A number read in part by the pull in progress, if there is one, fits 16 bits (R120). -/
def State.PlaceFits (s : State) : Prop := ∀ c, s.pull = some c → c.place.numberFits = true

theorem State.PlaceFits.of_no_pull {s : State} (h : s.pull = none) : s.PlaceFits :=
  fun _ hc => nomatch h.symm.trans hc

theorem State.PlaceFits.of_some {s : State} {c : PullState} (h : s.pull = some c)
    (hc : c.place.numberFits = true) : s.PlaceFits :=
  fun _ hd => Option.some.inj (h.symm.trans hd) ▸ hc

theorem State.PlaceFits.current {s : State} (h : s.PlaceFits) :
    s.currentPull.place.numberFits = true := by
  cases hp : s.pull with
  | none => simp [State.currentPull, hp]
  | some c => rw [State.currentPull_of_some s c hp]; exact h c hp

theorem State.PlaceFits.mapPull {s : State} {f : PullState → PullState} (h : s.PlaceFits)
    (hf : ∀ c : PullState, c.place.numberFits = true → (f c).place.numberFits = true) :
    (s.mapPull f).PlaceFits := by
  intro c hc
  obtain ⟨c', hc', rfl⟩ := Option.map_eq_some_iff.1 hc
  exact hf c' (h c' hc')

theorem State.PlaceFits.atPlace (s : State) {p : Place} (hp : p.numberFits = true) :
    (s.atPlace p).PlaceFits := by
  intro c hc
  obtain ⟨c', _, rfl⟩ := Option.map_eq_some_iff.1 hc
  exact hp

theorem State.PlaceFits.withTmpOct {s : State} (h : s.PlaceFits) (oct : Int) :
    (s.withTmpOct oct).PlaceFits :=
  h.mapPull fun _ hc => hc

theorem CursorMoved.placeFits {s t : State} (h : CursorMoved s t) (hs : s.PlaceFits) : t.PlaceFits :=
  fun c hc => hs c (h.pull ▸ hc)

/-- `t` comes from `s` by score text read without a fault: the pull goes on, or it is over. -/
inductive Played (s t : State) : Prop
  | on (reads : s.eng.ReadsOn t.eng) (fits : t.PlaceFits)
      (stays : s.pull.isSome = true → t.pull.isSome = true)
  | ended {mid : Engine} (reads : s.eng.ReadsOn mid) (ends : mid.Ends s.cfg t.eng)
      (closed : t.pull = none)

/-- A success of `f` is score text read. -/
def Plays (f : State → Except FaultCode State) : Prop :=
  ∀ s t : State, s.PlaceFits → f s = .ok t → Played s t

theorem Played.of_readsOn {s t u : State} (h : s.eng.ReadsOn t.eng) (hcfg : t.cfg = s.cfg)
    (hpull : s.pull.isSome = true → t.pull.isSome = true) (k : Played t u) : Played s u := by
  cases k with
  | on reads fits stays => exact .on (h.trans reads) fits (stays ∘ hpull)
  | ended reads ends closed => exact .ended (h.trans reads) (hcfg ▸ ends) closed

theorem Played.of_moved {s t u : State} (h : CursorMoved s t) (k : Played t u) : Played s u :=
  k.of_readsOn h.readsOn h.cfg fun hp => h.pull ▸ hp

theorem Played.trans {s t u : State} {c : PullState} (h : Played s t) (hcfg : t.cfg = s.cfg)
    (k : Played t u) (hc : t.pull = some c) : Played s u := by
  cases h with
  | on reads _ _ => exact k.of_readsOn reads hcfg fun _ => by rw [hc]; rfl
  | ended _ _ closed => cases closed.symm.trans hc

theorem Played.placeFits {s t : State} (h : Played s t) : t.PlaceFits := by
  cases h with
  | on _ fits _ => exact fits
  | ended _ _ closed => exact .of_no_pull closed

theorem ItemIssued.played {s t : State} (h : ItemIssued s t) : Played s t := by
  obtain ⟨u, d, params, hu, _, ⟨p, hp⟩, rfl⟩ := h
  exact .of_moved hu (.ended .refl (.item _ d hp) rfl)

/-- The tail of a note or rest letter issues an item, which ends the pull (R121 to R125). -/
theorem tailFromSharps_plays (p : Pitch) : Plays (tailFromSharps p) :=
  fun _ _ _ h => (tailFromSharps_ok h).played

theorem issueItem_played {p : Pitch} {d : Nat} {s t : State} (h : issueItem p d s = .ok t) :
    Played s t := by
  unfold issueItem at h
  split at h <;> cases h
  rename_i hp
  exact .ended .refl (.item _ d hp) rfl

theorem tailFromDots_played {p : Pitch} {d bonus : Nat} {s t : State}
    (h : tailFromDots p d bonus s = .ok t) : Played s t := by
  unfold tailFromDots at h
  split at h
  · cases h
  · rename_i hr
    exact .of_moved (readDots_moves hr) (issueItem_played h)

theorem applySetting_played {setting : Setting} {n : Nat} (hn : n ≤ 65535) {s t : State}
    (h : applySetting setting n s = .ok t) : Played s t := by
  have hs : (s.atPlace .tokens).PlaceFits := .atPlace s rfl
  rcases applySetting_ok h with ⟨_, rfl⟩ | ⟨_, _, hfit, rfl⟩ | ⟨_, h0, rfl⟩ | ⟨_, rfl⟩
  · exact .on (.single (.octave _ _)) (.withTmpOct (fun c hc => hs c hc) _) (by simp)
  · exact .on (.single (.tempo _ n hfit)) hs (by simp)
  · exact .on (.single (.length _ n h0 hn)) hs (by simp)
  · exact .on (.single (.volume _ _)) hs (by simp)

/-- A settings token writes its registers, with a number that fits 16 bits (R113 to R116, R120). -/
theorem settingFromNumber_plays (setting : Setting) {n : Nat} (hn : n ≤ 65535) :
    Plays (settingFromNumber setting n) := by
  intro s t _ h
  obtain ⟨m, u, hu, hm, hset⟩ := settingFromNumber_ok hn h
  exact .of_moved hu (applySetting_played hm hset)

theorem endOfScore_played (s : State) : Played s (endOfScore s) := .ended .refl (.score _) rfl

/-- Where a byte does not continue the place it stands at, the rest of the token is read (R73). -/
theorem resumeAt_plays {place : Place} (hp : place.numberFits = true) : Plays (resumeAt place) := by
  cases place with
  | tokens =>
    rintro s _ _ ⟨⟩
    exact .of_moved (advance_moves s) (endOfScore_played _)
  | number setting n => exact settingFromNumber_plays setting (of_decide_eq_true hp)
  | sharps p => exact tailFromSharps_plays p
  | flats p => exact fun _ _ _ h => (tailFromFlats_ok h).played
  | denominator p n => exact fun _ _ _ h => (tailFromDenominator_ok h).played
  | dots p d bonus => exact fun _ _ _ h => tailFromDots_played h

/-- Wherever a place accepts the byte, its effect is score text read. -/
def EffectPlays (effect : Place → Option (State → Except FaultCode State)) : Prop :=
  ∀ place f, effect place = some f → Plays f

/-- A byte that only moves the pull to another place writes no register. -/
theorem atPlace_played (s : State) {p : Place} (hp : p.numberFits = true) : Played s (s.atPlace p) :=
  .on .refl (.atPlace s hp) (by simp)

theorem sharpEffect_plays : EffectPlays sharpEffect := by
  intro place f h
  cases place <;> cases h
  rintro s _ _ ⟨⟩
  exact atPlace_played s rfl

theorem flatEffect_plays : EffectPlays flatEffect := by
  intro place f h
  cases place <;> cases h <;> rintro s _ _ ⟨⟩ <;> exact atPlace_played s rfl

theorem digitEffect_plays (v : Nat) : EffectPlays (digitEffect v) := by
  intro place f h s t _ ht
  rcases digitEffect_ok h ht with ⟨_, _, _, hle, rfl⟩ | ⟨_, _, _, hle, rfl⟩ <;>
    exact atPlace_played s (decide_eq_true hle)

theorem dotEffect_plays : EffectPlays dotEffect := by
  intro place f h
  cases place <;> cases h
  intro s t _ ht
  simp only at ht
  split at ht <;> cases ht
  exact atPlace_played s rfl

theorem settingToken_plays (setting : Setting) : Plays (settingToken setting) :=
  settingFromNumber_plays setting (Nat.zero_le _)

theorem withTmpOct_plays (oct : State → Int) : Plays fun s => .ok (s.withTmpOct (oct s)) := by
  rintro s _ hs ⟨⟩
  exact .on .refl (hs.withTmpOct _) (by simp)

/-- The second letter of `ML` or `MS` is consumed and the style written (R117). -/
theorem style_plays {f : Engine → Engine} (hf : ∀ e : Engine, e.Reads (f e)) :
    Plays fun s => .ok (s.consumeSecond.mapEng f) := by
  rintro s _ hs ⟨⟩
  have hmoved : CursorMoved s s.consumeSecond := fetchAdvance_moves s
  exact .of_moved hmoved (.on (.single (hf _)) (hmoved.placeFits hs) id)

theorem resetMusic_plays : Plays fun s => .ok ((s.mapEng Engine.resetMusic).withTmpOct 4) := by
  rintro s _ hs ⟨⟩
  exact .on (.single (.resetMusic _)) (.withTmpOct (fun c hc => hs c hc) 4) (by simp)

theorem endOfScore_plays : Plays fun s => .ok (endOfScore s) := by
  rintro s _ _ ⟨⟩
  exact endOfScore_played s

theorem State.PlaceFits.opened {s : State} (h : s.PlaceFits) : s.opened.PlaceFits :=
  .of_some (State.opened_pull s) h.current

/-- A score byte changes nothing (the engine is halted), raises a fault, or is score text read. -/
def ByteRun (s t : State) : Prop := t = s ∨ (∃ code, t = s.raise code) ∨ Played s t

theorem runByte_byteRun {effect : Place → Option (State → Except FaultCode State)}
    (he : EffectPlays effect) {s t : State} (hs : s.PlaceFits) (h : runByte effect s = .next t) :
    ByteRun s t := by
  have hadv : s.opened.advance.PlaceFits := (advance_moves _).placeFits hs.opened
  have hopened : ∀ u, Played s.opened u → Played s u := fun _ k =>
    .of_readsOn (t := s.opened) .refl rfl (fun _ => rfl) k
  rcases runByte_next h with ⟨_, rfl⟩ | ⟨_, hraise | ⟨f, hf, hft⟩ | ⟨_, hr⟩⟩
  · exact .inl rfl
  · exact .inr (.inl hraise)
  · exact .inr (.inr (hopened t (.of_moved (advance_moves _) (he _ f hf _ t hadv hft))))
  · exact .inr (.inr (hopened t (resumeAt_plays hs.current _ t hs.opened hr)))

theorem runToken_byteRun {f : State → Except FaultCode State} (hf : Plays f) {s t : State}
    (hs : s.PlaceFits) (h : runToken f s = .next t) : ByteRun s t := by
  refine runByte_byteRun (fun place g hg => ?_) hs h
  cases place <;> cases hg
  exact hf

theorem execSpace_byteRun {s t : State} (hs : s.PlaceFits) (h : execSpace s = .next t) :
    ByteRun s t := by
  cases hh : s.halted with
  | true => cases (unlessHalted_of_halted hh _).symm.trans h; exact .inl rfl
  | false =>
    cases (unlessHalted_of_live hh _).symm.trans h
    exact .inr (.inr (.on (advance_moves s).readsOn ((advance_moves s).placeFits hs) id))

/-- Everything a score byte can do to the registers (R11, R100, R138). -/
theorem exec_score_byteRun {i : Instr} (hi : Laws.Shape.isCommand i = false) {s t : State}
    (hs : s.PlaceFits) (h : exec i s = .next t) : ByteRun s t := by
  cases i with
  | playFreq | playNote | playSeq | playMode | playCheck | isPlaying | stop | illegalCmd => cases hi
  | octaveUp | octaveDown => exact runToken_byteRun (withTmpOct_plays _) hs h
  | noteA | noteB | noteC | noteD | noteE | noteF | noteG =>
    exact runToken_byteRun (fun s => tailFromSharps_plays _ s) hs h
  | rest => exact runToken_byteRun (tailFromSharps_plays _) hs h
  | setOctave | setTempo | setLength | setVolume => exact runToken_byteRun (settingToken_plays _) hs h
  | legato => exact runToken_byteRun (style_plays .legato) hs h
  | staccato => exact runToken_byteRun (style_plays .staccato) hs h
  | resetMusic => exact runToken_byteRun resetMusic_plays hs h
  | sharpPlus | sharpHash => exact runByte_byteRun sharpEffect_plays hs h
  | flat => exact runByte_byteRun flatEffect_plays hs h
  | digitLow | digitHigh => exact runByte_byteRun (digitEffect_plays _) hs h
  | dot => exact runByte_byteRun dotEffect_plays hs h
  | space => exact execSpace_byteRun hs h
  | terminator => exact runToken_byteRun endOfScore_plays hs h

/-! ## What a whole pull writes -/

/-- No instruction changes a halted engine (R138). -/
theorem exec_of_halted {s : State} (h : s.halted = true) (i : Instr) : exec i s = .next s := by
  cases i <;> exact unlessHalted_of_halted h _

/-- A score byte of a pull in progress faults, rolled back to where the pull began, or reads on within the
frame. -/
theorem exec_score_of_pull {i : Instr} (hi : Laws.Shape.isCommand i = false) {s t : State} {c : PullState}
    (hc : s.pull = some c) (hfits : s.PlaceFits) (h : exec i s = .next t) :
    (∃ code, t = s.raise code) ∨ (SameFrame s t ∧ Played s t) := by
  have hstay : SameFrame s s ∧ Played s s := ⟨.refl s, .on .refl hfits id⟩
  cases hh : s.halted with
  | true => cases (exec_of_halted hh i).symm.trans h; exact .inr hstay
  | false =>
    have hrun := exec_score_raisedOrFramed hi hh h
    rw [opened_of_pull hc] at hrun
    rcases hrun with hraise | hframe
    · exact .inl hraise
    · rcases exec_score_byteRun hi hfits h with rfl | hraise | hplayed
      · exact .inr hstay
      · exact .inl hraise
      · exact .inr ⟨hframe, hplayed⟩

theorem pullLoop_played {k : Nat} {s t : State} (hs : s.PlaceFits) (h : pullLoop k s = .next t) :
    (∃ code, t = s.raise code) ∨ (SameFrame s t ∧ Played s t) := by
  refine pullLoop_keeps (fun u => (∃ code, u = s.raise code) ∨ (SameFrame s u ∧ Played s u))
    (fun u v hu hsu huv => ?_) k s t (.inr ⟨.refl s, .on .refl hs id⟩) h
  obtain ⟨c, hc⟩ := Option.isSome_iff_exists.1 hu
  rcases hsu with ⟨code, rfl⟩ | ⟨hframe, hplayed⟩
  · cases hu
  · obtain ⟨hi, hexec⟩ := execToken_next huv
    rcases exec_score_of_pull hi hc hplayed.placeFits hexec with ⟨code, rfl⟩ | ⟨hkept, hread⟩
    · exact .inl ⟨code, hframe.raise_eq hc code⟩
    · exact .inr ⟨hframe.trans hkept, hplayed.trans hframe.cfg hread hc⟩

theorem SameFrame.eq_of_closed {s t : State} (h : SameFrame s t) (hp : t.pull = none) :
    t = { s with eng := t.eng, pull := none } := by
  rw [← h.cfg, ← h.mem, ← h.inputs, ← hp]

/-- Everything a whole pull can do: a fault recorded in the registers the agent step began with, or the
writes of the pull; and the pull is over (R100, R101, R138). -/
theorem runPull_writes {origin : Engine} {s t : State} (h : runPull origin s = .next t) :
    ∃ e', t = { s with eng := e', pull := none } ∧
      ((∃ code, e' = origin.recordFault code) ∨ s.eng.Pulls s.cfg e') := by
  rcases runPull_next h with ⟨_, hr⟩ | ⟨hnone, hl⟩
  · rw [playPendingRest_eq] at hr
    cases hr
    exact ⟨_, rfl, .inr .rest⟩
  · have hend : t.pull = none := pullLoop_ends _ _ _ hl
    have hfits : (s.openPull origin).PlaceFits := .of_some (State.openPull_pull s origin) rfl
    rcases pullLoop_played hfits hl with ⟨code, rfl⟩ | ⟨hframe, hplayed⟩
    · exact ⟨_, rfl, .inl ⟨code, rfl⟩⟩
    · refine ⟨t.eng, hframe.eq_of_closed hend, .inr ?_⟩
      cases hplayed with
      | on _ _ stays => cases hend ▸ stays rfl
      | ended reads ends _ => exact .score hnone reads ends

/-! ## What an agent step writes (R126 to R143) -/

/-- The registers after an agent step that neither faults nor pulls: of a host command, or of a tick (`none`)
(R127, R128, R130 to R133, R142, R143). -/
inductive AgentWrites (cfg : Config) (e : Engine) : Option Instr → Engine → Prop
  | playFreq {freq dur : Half} {vol : Byte} {p : ToneParams} (planned : plan cfg freq dur vol = .ok p) :
      AgentWrites cfg e (some (.playFreq freq dur vol)) (e.endSession.toneStart p)
  | playNote {note : Byte} {dur : Half} {vol : Byte} {p : ToneParams}
      (planned : planNote cfg (hostPitch note) dur vol = .ok p) :
      AgentWrites cfg e (some (.playNote note dur vol)) (e.endSession.toneStart p)
  | playMode (mode : Mode) (notDue : mode = .automatic → e.pullDue = false) :
      AgentWrites cfg e (some (.playMode mode)) (e.setMode mode)
  | playCheck (notDue : e.pullDue = false) :
      AgentWrites cfg e (some .playCheck) (e.respond e.seqActive)
  | isPlaying : AgentWrites cfg e (some .isPlaying) (e.respond e.playing)
  | stop : AgentWrites cfg e (some .stop) (e.stop cfg)
  | countDown : AgentWrites cfg e none e.countDown
  | expire (noPull : e.pullsAtExpiry = false) : AgentWrites cfg e none (e.expire cfg)

/-- The registers with which the pull of an agent step begins (R129 to R131, R142). -/
inductive PullStarts (cfg : Config) (e : Engine) : Option Instr → Engine → Prop
  | playSeq (base len : Half) : PullStarts cfg e (some (.playSeq base len)) (e.startScore base len)
  | playMode (due : e.pullDue = true) : PullStarts cfg e (some (.playMode .automatic)) (e.setMode .automatic)
  | playCheck (due : e.pullDue = true) : PullStarts cfg e (some .playCheck) e
  | expire (pulls : e.pullsAtExpiry = true) : PullStarts cfg e none (e.expire cfg)

/-- Everything an agent step, reset apart, can do to the registers. -/
inductive AgentStep (cfg : Config) (e : Engine) (i : Option Instr) : Engine → Prop
  | idle : AgentStep cfg e i e
  | faults (live : e.fault = 0) (code : FaultCode) : AgentStep cfg e i (e.recordFault code)
  | writes {e' : Engine} (h : AgentWrites cfg e i e') : AgentStep cfg e i e'
  | pulls {start e' : Engine} (starts : PullStarts cfg e i start) (h : start.Pulls cfg e') :
      AgentStep cfg e i e'
  | answers {start e' : Engine} (check : i = some .playCheck) (starts : PullStarts cfg e i start)
      (h : start.Pulls cfg e') : AgentStep cfg e i (e'.respond e'.seqActive)

/-- The agent step of `i` that leads from `s` to `t` does nothing but write the registers. -/
def AgentRun (i : Option Instr) (s t : State) : Prop :=
  ∃ e', AgentStep s.cfg s.eng i e' ∧ t = { s with eng := e' }

theorem fault_eq_zero_of_live {s : State} (h : s.halted = false) : s.eng.fault = 0 := by
  simpa [State.halted] using h

theorem next_of_live {s t : State} {r : Answer} (hs : s.halted = false)
    (h : s.unlessHalted r = .next t) : r = .next t :=
  (unlessHalted_of_live hs r).symm.trans h

theorem raise_of_no_pull {s : State} (hn : s.pull = none) (code : FaultCode) :
    s.raise code = { s with eng := s.eng.recordFault code } := by
  simp [State.raise, State.origin, hn]

theorem agentRun_raise {i : Option Instr} {s : State} (hn : s.pull = none) (hs : s.halted = false)
    (code : FaultCode) : AgentRun i s (s.raise code) :=
  ⟨_, .faults (fault_eq_zero_of_live hs) code, raise_of_no_pull hn code⟩

theorem runPull_agentRun {i : Option Instr} {s t : State} {f : Engine → Engine} (hn : s.pull = none)
    (hs : s.halted = false) (starts : PullStarts s.cfg s.eng i (f s.eng))
    (h : runPull s.eng (s.mapEng f) = .next t) : AgentRun i s t := by
  obtain ⟨e', ht, hcases⟩ := runPull_writes h
  refine ⟨e', ?_, by rw [ht, ← hn]; rfl⟩
  rcases hcases with ⟨code, rfl⟩ | hpulls
  · exact .faults (fault_eq_zero_of_live hs) code
  · exact .pulls starts hpulls

theorem playPlanned_agentRun {i : Instr} {s t : State} {planned : Except FaultCode ToneParams}
    (hn : s.pull = none) (hs : s.halted = false)
    (writes : ∀ p, planned = .ok p → AgentWrites s.cfg s.eng (some i) (s.eng.endSession.toneStart p))
    (h : s.settle (playPlanned s planned) = .next t) : AgentRun (some i) s t := by
  rcases settle_next h with hok | ⟨code, _, rfl⟩
  · cases planned with
    | error code => cases hok
    | ok p => cases hok; exact ⟨_, .writes (writes p rfl), rfl⟩
  · exact agentRun_raise hn hs code

theorem execPlayMode_agentRun {mode : Mode} {s t : State} (hn : s.pull = none) (hs : s.halted = false)
    (h : execPlayMode mode s = .next t) : AgentRun (some (.playMode mode)) s t := by
  replace h := next_of_live hs h
  cases mode with
  | checkDriven => cases h; exact ⟨_, .writes (.playMode _ nofun), rfl⟩
  | automatic =>
    simp only [pullIfDue] at h
    split at h
    · rename_i hdue; exact runPull_agentRun hn hs (.playMode (e := s.eng) hdue) h
    · rename_i hdue
      cases h
      exact ⟨_, .writes (.playMode _ fun _ => Bool.eq_false_of_not_eq_true hdue), rfl⟩

theorem answerActive_of_live {s : State} (h : s.halted = false) :
    s.answerActive = s.mapEng fun e => e.respond e.seqActive :=
  if_neg (Bool.eq_false_iff.1 h)

/-- The answer of `PLAY_CHECK` follows its pull; a fault in the pull takes it away (R131). -/
theorem answerActive_agentRun {s u : State} (hn : s.pull = none) (hs : s.halted = false)
    (hdue : s.eng.pullDue = true) (h : runPull s.eng s = .next u) :
    AgentRun (some .playCheck) s u.answerActive := by
  cases hu : u.halted with
  | true =>
    rw [State.answerActive, if_pos hu]
    exact runPull_agentRun (f := id) hn hs (.playCheck hdue) h
  | false =>
    rw [answerActive_of_live hu]
    obtain ⟨e', rfl, ⟨code, rfl⟩ | hpulls⟩ := runPull_writes h
    · have hfault := raise_halted { s with pull := none } code
      cases hu.symm.trans hfault
    · exact ⟨_, .answers rfl (.playCheck hdue) hpulls, by rw [← hn]; rfl⟩

theorem execPlayCheck_agentRun {s t : State} (hn : s.pull = none) (hs : s.halted = false)
    (h : execPlayCheck s = .next t) : AgentRun (some .playCheck) s t := by
  rw [execPlayCheck, unlessHalted_of_live hs] at h
  split at h <;> cases h
  rename_i u hu
  unfold pullIfDue at hu
  split at hu
  · rename_i hdue; exact answerActive_agentRun hn hs hdue hu
  · rename_i hdue
    cases hu
    rw [answerActive_of_live hs]
    exact ⟨_, .writes (.playCheck (Bool.eq_false_of_not_eq_true hdue)), rfl⟩

/-- Everything a host command can do where no pull is in progress (R126 to R138). -/
theorem exec_command_agentRun {i : Instr} (hi : Laws.Shape.isCommand i = true) {s t : State}
    (hn : s.pull = none) (h : exec i s = .next t) : AgentRun (some i) s t := by
  cases hs : s.halted with
  | true => cases (exec_of_halted hs i).symm.trans h; exact ⟨_, .idle, rfl⟩
  | false =>
    cases i with
    | playFreq => exact playPlanned_agentRun hn hs (fun _ hp => .playFreq hp) (next_of_live hs h)
    | playNote => exact playPlanned_agentRun hn hs (fun _ hp => .playNote hp) (next_of_live hs h)
    | playSeq base len => exact runPull_agentRun hn hs (.playSeq base len) (next_of_live hs h)
    | playMode => exact execPlayMode_agentRun hn hs h
    | playCheck => exact execPlayCheck_agentRun hn hs h
    | isPlaying => cases next_of_live hs h; exact ⟨_, .writes .isPlaying, rfl⟩
    | stop => cases next_of_live hs h; exact ⟨_, .writes .stop, rfl⟩
    | illegalCmd => cases next_of_live hs h; exact agentRun_raise hn hs .illegalCmd
    | _ => cases hi

theorem live_of_tickEnabled {s : State} (h : s.tickEnabled = true) : s.halted = false := by
  simp only [State.tickEnabled, Bool.and_eq_true, Bool.not_eq_true'] at h
  exact h.2

/-- Everything a tick can do where no pull is in progress (R141 to R143). -/
theorem tick_agentRun {s t : State} (hn : s.pull = none) (h : tick s = .next t) :
    AgentRun none s t := by
  rcases tick_next h with ⟨_, rfl⟩ | ⟨_, _, rfl⟩ | ⟨_, _, hp, rfl⟩ | ⟨hen, _, hp, hpull⟩
  · exact ⟨_, .idle, rfl⟩
  · exact ⟨_, .writes .countDown, rfl⟩
  · exact ⟨_, .writes (.expire hp), rfl⟩
  · exact runPull_agentRun hn (live_of_tickEnabled hen) (.expire hp) hpull

/-- A command word spells a host command or none, never a score byte (R67, R68). -/
theorem decodeCommand_isCommand (w : CommandWord) :
    Laws.Shape.isCommand (decodeCommand w) = true := by
  unfold decodeCommand
  split
  -- `PLAY_FREQ` and the opcodes of no command; every other opcode checks its reserved fields.
  case h_1 | h_8 => rfl
  all_goals split <;> rfl

/-- A score byte never spells a host command (R71). -/
theorem decodeToken_isCommand (c second : Byte) :
    Laws.Shape.isCommand (decodeToken c second) = false := by
  unfold decodeToken
  split
  -- Only `M` looks at the byte after it.
  case h_27 => split <;> rfl
  all_goals rfl

/-- Everything a step can do where no pull is in progress: an agent's writes to the registers, a byte the
host places, or reset (R5, R63, R155). -/
inductive AgentOutcome (s t : State) : Prop
  | registers {e' : Engine} {later : List Input} (step : AgentStep s.cfg s.eng s.nextCommand e')
      (ht : t = { s with eng := e', inputs := later })
  | placed {addr : Half} {byte : Byte} {later : List Input} (hin : s.inputs = .load addr byte :: later)
      (inactive : s.eng.seqActive = false)
      (ht : t = { s with mem := s.mem.write addr.toNat byte, inputs := later })
  | restarted {later : List Input} (hin : s.inputs = .reset :: later)
      (ht : t = { s with eng := Engine.reset s.cfg, inputs := later, pull := none })

theorem AgentRun.outcome {i : Option Instr} {s t : State} {later : List Input} (hi : s.nextCommand = i)
    (h : AgentRun i { s with inputs := later } t) : AgentOutcome s t := by
  obtain ⟨e', hstep, rfl⟩ := h
  exact .registers (hi ▸ hstep) rfl

theorem step_outcome {s t : State} (hn : s.pull = none) (h : step s = .next t) : AgentOutcome s t := by
  rw [step_of_no_pull hn] at h
  cases hin : s.inputs with
  | nil =>
    rw [agentStep_of_nil hin] at h
    exact (tick_agentRun hn h).outcome (later := s.inputs) (State.nextCommand_of_none hin)
  | cons input later =>
    rw [agentStep_of_cons hin] at h
    cases input with
    | command w =>
      exact (exec_command_agentRun (decodeCommand_isCommand w) (s := { s with inputs := later }) hn
        h).outcome (State.nextCommand_of_command hin)
    | tick =>
      exact (tick_agentRun (s := { s with inputs := later }) hn h).outcome
        (State.nextCommand_of_tick hin)
    | load addr byte =>
      obtain ⟨hidle, rfl⟩ := placeByte_next h
      exact .placed hin hidle rfl
    | reset => cases h; exact .restarted hin rfl

/-! ## Invariants of the registers -/

/-- Every write of the agent step of `i` keeps `P`, and `inside` holds of the registers during its pull. -/
structure StepKeeps (cfg : Config) (i : Option Instr) (inside P : Engine → Prop) : Prop where
  faults : ∀ (e : Engine) (code : FaultCode), e.fault = 0 → P e → P (e.recordFault code)
  writes : ∀ e e' : Engine, AgentWrites cfg e i e' → P e → P e'
  starts : ∀ e e' : Engine, PullStarts cfg e i e' → P e → e'.restPending = false → inside e'
  rests : ∀ e e' : Engine, PullStarts cfg e i e' → P e → P (e'.playRest cfg)
  reads : ∀ e e' : Engine, e.Reads e' → inside e → inside e'
  ends : ∀ e e' : Engine, e.Ends cfg e' → inside e → P e'
  answers : i = some .playCheck → ∀ e : Engine, P e → P (e.respond e.seqActive)

theorem StepKeeps.pulls {cfg : Config} {i : Option Instr} {inside P : Engine → Prop}
    (k : StepKeeps cfg i inside P) {e start e' : Engine} (starts : PullStarts cfg e i start)
    (h : start.Pulls cfg e') (he : P e) : P e' := by
  cases h with
  | rest => exact k.rests e start starts he
  | score noRest reads ends =>
    exact k.ends _ _ ends (reads.keeps k.reads (k.starts e start starts he noRest))

/-- An invariant of the registers is one of the agent steps. -/
theorem AgentStep.keeps {cfg : Config} {i : Option Instr} {inside P : Engine → Prop}
    (k : StepKeeps cfg i inside P) {e e' : Engine} (h : AgentStep cfg e i e') (he : P e) : P e' := by
  cases h with
  | idle => exact he
  | faults live code => exact k.faults e code live he
  | writes h => exact k.writes e e' h he
  | pulls starts h => exact k.pulls starts h he
  | answers check starts h => exact k.answers check _ (k.pulls starts h he)

/-- An invariant of the registers during a pull is one of the score text read by it. -/
theorem Played.keeps {inside P : Engine → Prop} {s t : State} (h : Played s t)
    (reads : ∀ e e' : Engine, e.Reads e' → inside e → inside e')
    (ends : ∀ e e' : Engine, e.Ends s.cfg e' → inside e → P e') (weaken : ∀ e, inside e → P e)
    (hs : inside s.eng) : P t.eng := by
  cases h with
  | on hreads _ _ => exact weaken _ (hreads.keeps reads hs)
  | ended hreads hends _ => exact ends _ _ hends (hreads.keeps reads hs)

theorem AgentOutcome.noPull {s t : State} (h : AgentOutcome s t) (hn : s.pull = none) : t.pull = none := by
  cases h with
  | registers _ ht => rw [ht]; exact hn
  | placed _ _ ht => rw [ht]; exact hn
  | restarted _ ht => rw [ht]

/-- A property of the registers that reset establishes and every agent step keeps. -/
theorem AgentOutcome.keeps {inside P : Engine → Prop} {s t : State} (h : AgentOutcome s t)
    (k : StepKeeps s.cfg s.nextCommand inside P)
    (reset : s.inputs.head? = some .reset → P (Engine.reset s.cfg)) (hs : P s.eng) : P t.eng := by
  cases h with
  | registers hstep ht => rw [ht]; exact hstep.keeps k hs
  | placed _ _ ht => rw [ht]; exact hs
  | restarted hin ht => rw [ht]; exact reset (by rw [hin]; rfl)

/-! ## Fault registers (R36, R139) -/

/-- A live engine has no cause of a fault either. -/
theorem Engine.faultOk.cause_of_live {e : Engine} (h : e.faultOk) (hf : e.fault = 0) :
    e.faultCause = 0 := by
  rcases h with ⟨_, hc⟩ | ⟨code, hm, _⟩
  · exact hc
  · rw [hf] at hm; cases code <;> cases hm

theorem faultOk_recordFault {e : Engine} (hf : e.fault = 0) (hc : e.faultCause = 0)
    (code : FaultCode) : (e.recordFault code).faultOk :=
  .inr ⟨code, by simp [hf], by simp [hc]⟩

/-- The fault registers of `e'` are those of `e`. -/
def SameFault (e e' : Engine) : Prop := e'.fault = e.fault ∧ e'.faultCause = e.faultCause

theorem SameFault.faultOk {e e' : Engine} (h : SameFault e e') (he : e.faultOk) : e'.faultOk := by
  simpa only [Engine.faultOk, h.1, h.2] using he

theorem Engine.Reads.sameFault {e e' : Engine} (h : e.Reads e') : SameFault e e' := by
  cases h <;> exact ⟨rfl, rfl⟩

theorem Engine.Ends.sameFault {cfg : Config} {e e' : Engine} (h : e.Ends cfg e') : SameFault e e' := by
  cases h with
  | item d _ => exact ⟨e.withSplit_fault d, e.withSplit_faultCause d⟩
  | score => exact ⟨rfl, rfl⟩

theorem AgentWrites.sameFault {cfg : Config} {e e' : Engine} {i : Option Instr}
    (h : AgentWrites cfg e i e') : SameFault e e' := by
  cases h <;> exact ⟨rfl, rfl⟩

theorem PullStarts.sameFault {cfg : Config} {e e' : Engine} {i : Option Instr}
    (h : PullStarts cfg e i e') : SameFault e e' := by
  cases h <;> exact ⟨rfl, rfl⟩

/-- Only a fault writes the fault registers, and only where there is none yet. -/
theorem faultOk_stepKeeps (cfg : Config) (i : Option Instr) :
    StepKeeps cfg i Engine.faultOk Engine.faultOk where
  faults _ code live he := faultOk_recordFault live (he.cause_of_live live) code
  writes _ _ h := h.sameFault.faultOk
  starts _ _ h he _ := h.sameFault.faultOk he
  rests _ _ h he := h.sameFault.faultOk he
  reads _ _ h := h.sameFault.faultOk
  ends _ _ h := h.sameFault.faultOk
  answers _ _ he := he

theorem State.FaultInv.of_no_pull {s : State} (hn : s.pull = none) (h : s.eng.faultOk) : s.FaultInv :=
  ⟨h, fun _ hc => nomatch hn.symm.trans hc⟩

theorem live_of_fault_eq_zero {s : State} (h : s.eng.fault = 0) : s.halted = false := by
  simp [State.halted, h]

/-- A score byte of a pull in progress raises the first fault or leaves the fault registers. -/
theorem tokenStep_faultInv {s t : State} {c : PullState} (hc : s.pull = some c) (hs : s.FaultInv)
    (h : exec s.nextToken s = .next t) : t.FaultInv := by
  obtain ⟨hfault, hcause, hentryFault, hentryCause⟩ := hs.inPull c hc
  have hrun := exec_score_raisedOrFramed (decodeToken_isCommand _ _) (live_of_fault_eq_zero hfault) h
  rw [opened_of_pull hc] at hrun
  rcases hrun with ⟨code, rfl⟩ | hframe
  · refine .of_no_pull rfl ?_
    have horigin : s.origin = c.entry := by simp [State.origin, hc]
    rw [State.raise_eng, horigin]
    exact faultOk_recordFault hentryFault hentryCause code
  · have hfault' := hframe.fault.trans hfault
    have hcause' := hframe.faultCause.trans hcause
    refine ⟨.inl ⟨hfault', hcause'⟩, fun d hd => ?_⟩
    obtain ⟨c', hc', hentry⟩ := hframe.entry d hd
    cases hc.symm.trans hc'
    rw [hentry]
    exact ⟨hfault', hcause', hentryFault, hentryCause⟩

/-- A step of a state with a pull in progress is the score byte at its cursor. -/
theorem step_of_pull {s : State} {c : PullState} (hc : s.pull = some c) :
    step s = exec s.nextToken s := by
  simp [step_eq, hc]

/-- Settles O52: an agent step records a fault only on a live engine, and a score byte of a pull in the
registers the pull rolls back to, which hold none. -/
theorem faultRegistersAgree : Obligations.FaultRegistersAgree := by
  intro s t hs h
  cases hp : s.pull with
  | some c => exact tokenStep_faultInv hp hs (step_of_pull hp ▸ h)
  | none =>
    have hout := step_outcome hp h
    exact .of_no_pull (hout.noPull hp)
      (hout.keeps (faultOk_stepKeeps _ _) (fun _ => .inl ⟨rfl, rfl⟩) hs.registers)

/-! ## The music state (R30) -/

theorem Engine.musicOk_iff (e : Engine) : e.musicOk = true ↔
    e.noteType ≠ 0 ∧ e.duration = BitVec.ofNat 16 (e.wholeMs.toNat / e.noteType.toNat) := by
  simp [Engine.musicOk]

/-- `e'` has the music state of `e`. -/
def SameMusic (e e' : Engine) : Prop :=
  e'.noteType = e.noteType ∧ e'.wholeMs = e.wholeMs ∧ e'.duration = e.duration

theorem SameMusic.musicOk {e e' : Engine} (h : SameMusic e e') (he : e.musicOk = true) :
    e'.musicOk = true := by
  obtain ⟨hn, hw, hd⟩ := h
  rwa [Engine.musicOk, hn, hw, hd]

theorem toNat_ofNat_half {n : Nat} (h : n ≤ 65535) : (BitVec.ofNat 16 n).toNat = n :=
  Nat.mod_eq_of_lt (by omega)

/-- A tempo or a default duration that fits 16 bits recomputes `DURATION` (R114, R115). -/
theorem Engine.Reads.musicOk {e e' : Engine} (h : e.Reads e') (he : e.musicOk = true) :
    e'.musicOk = true := by
  cases h with
  | tempo n fits =>
    rw [Engine.musicOk_iff] at he ⊢
    exact ⟨he.1, by simp only [toNat_ofNat_half fits]⟩
  | length n positive fits =>
    have hn := toNat_ofNat_half fits
    rw [Engine.musicOk_iff]
    refine ⟨fun h0 => positive ?_, by simp only [hn]⟩
    rw [← hn, show BitVec.ofNat 16 n = 0 from h0]; rfl
  | resetMusic => simp [Engine.musicOk]
  | cursor | octave | volume | legato | staccato => exact SameMusic.musicOk ⟨rfl, rfl, rfl⟩ he

theorem Engine.Ends.sameMusic {cfg : Config} {e e' : Engine} (h : e.Ends cfg e') : SameMusic e e' := by
  cases h with
  | item d _ => exact ⟨e.withSplit_noteType d, e.withSplit_wholeMs d, e.withSplit_duration d⟩
  | score => exact ⟨rfl, rfl, rfl⟩

theorem AgentWrites.sameMusic {cfg : Config} {e e' : Engine} {i : Option Instr}
    (h : AgentWrites cfg e i e') : SameMusic e e' := by
  cases h <;> exact ⟨rfl, rfl, rfl⟩

theorem PullStarts.sameMusic {cfg : Config} {e e' : Engine} {i : Option Instr}
    (h : PullStarts cfg e i e') : SameMusic e e' := by
  cases h <;> exact ⟨rfl, rfl, rfl⟩

theorem reset_musicOk (cfg : Config) : (Engine.reset cfg).musicOk = true := by
  simp [Engine.musicOk]

theorem musicOk_stepKeeps (cfg : Config) (i : Option Instr) :
    StepKeeps cfg i (·.musicOk = true) (·.musicOk = true) where
  faults _ _ _ he := he
  writes _ _ h := h.sameMusic.musicOk
  starts _ _ h he _ := h.sameMusic.musicOk he
  rests _ _ h he := h.sameMusic.musicOk he
  reads _ _ h := h.musicOk
  ends _ _ h := h.sameMusic.musicOk
  answers _ _ he := he

theorem musicOk_iff_of_pull {s : State} {c : PullState} (hc : s.pull = some c) :
    s.musicOk = true ↔ s.eng.musicOk = true ∧ c.entry.musicOk = true ∧ c.place.numberFits = true := by
  simp [State.musicOk_of_pull hc]

theorem tokenStep_musicOk {s t : State} {c : PullState} (hc : s.pull = some c) (hs : s.musicOk = true)
    (h : exec s.nextToken s = .next t) : t.musicOk = true := by
  obtain ⟨hregs, hentry, hfits⟩ := (musicOk_iff_of_pull hc).1 hs
  have hrun := exec_score_of_pull (decodeToken_isCommand _ _) hc (.of_some hc hfits) h
  rcases hrun with ⟨code, rfl⟩ | ⟨hframe, hplayed⟩
  · have horigin : s.origin = c.entry := by simp [State.origin, hc]
    rw [State.musicOk_of_no_pull rfl, State.raise_eng, horigin]
    exact SameMusic.musicOk ⟨rfl, rfl, rfl⟩ hentry
  · have hregs' : t.eng.musicOk = true := hplayed.keeps (fun _ _ h => h.musicOk)
      (fun _ _ h => h.sameMusic.musicOk) (fun _ h => h) hregs
    cases hd : t.pull with
    | none => rwa [State.musicOk_of_no_pull hd]
    | some d =>
      obtain ⟨c', hc', hsame⟩ := hframe.entry d hd
      cases hc.symm.trans hc'
      exact (musicOk_iff_of_pull hd).2 ⟨hregs', hsame ▸ hentry, hplayed.placeFits d hd⟩

/-- Settles O53: `T<n>` and `L<n>` recompute `DURATION`, `!` writes three values that agree, and nothing else
writes one of them. -/
theorem durationFollowsTempoAndDenominator : Obligations.DurationFollowsTempoAndDenominator := by
  intro s t hs h
  cases hp : s.pull with
  | some c => exact tokenStep_musicOk hp hs (step_of_pull hp ▸ h)
  | none =>
    have hout := step_outcome hp h
    rw [State.musicOk_of_no_pull hp] at hs
    rw [State.musicOk_of_no_pull (hout.noPull hp)]
    exact hout.keeps (musicOk_stepKeeps _ _) (fun _ => reset_musicOk _) hs

/-! ## The session (R22, R27, R33, R94, R101, R131) -/

/-- The duty shifts the top right by at least one bit (R94). -/
theorem dutyValue_le (top v : Nat) : 2 * dutyValue top v ≤ top := by
  have hpow : 2 ^ 1 ≤ 2 ^ (16 - min v 15) := Nat.pow_le_pow_right (by decide) (by omega)
  have hhalf : top / 2 ^ (16 - min v 15) ≤ top / 2 ^ 1 := Nat.div_le_div_left hpow (by decide)
  rw [dutyValue, Nat.shiftRight_eq_div_pow]
  omega

/-- The duty value of a plan is at most half of its top value (R94). -/
theorem plan_duty {cfg : Config} {fw d : Half} {v : Byte} {p : ToneParams}
    (h : plan cfg fw d v = .ok p) : 2 * p.duty.toNat ≤ p.top.toNat := by
  rcases plan_cases cfg fw d v with ⟨t, _, _, hp⟩ | hp
  · obtain rfl := Except.ok.inj (hp.symm.trans h)
    rw [top_toNat cfg (clampFreq_inUnit fw)]
    exact le_trans (Nat.mul_le_mul_left 2 (Nat.mod_le _ _)) (dutyValue_le _ _)
  · cases hp.symm.trans h

theorem planNote_duty {cfg : Config} {pitch : Pitch} {d : Half} {v : Byte} {p : ToneParams}
    (h : planNote cfg pitch d v = .ok p) : 2 * p.duty.toNat ≤ p.top.toNat := by
  unfold planNote planSilent at h
  cases pitch with
  | silent => exact plan_duty h
  | note n =>
    simp only at h
    split at h <;> exact plan_duty h

/-- What `State.SessionInv` says of the registers. -/
structure Engine.SessionOk (e : Engine) : Prop where
  cursor : e.seqOff.toNat ≤ e.seqLen.toNat
  ticking : e.tickIE = !e.finished
  pending : e.staccRest ≠ 0 → e.staccato = true ∧ e.seqActive = true
  noneWaiting : e.mode = .automatic → ¬(e.finished = true ∧ e.seqActive = true)
  duty : 2 * e.toneDuty.toNat ≤ e.toneTop.toNat

theorem State.sessionInv_iff (s : State) : s.SessionInv ↔ s.pull = none ∧ s.eng.SessionOk :=
  ⟨fun h => ⟨h.noPull, h.cursor, h.ticking, h.pending, h.noneWaiting, h.duty⟩,
    fun ⟨hp, h⟩ => ⟨hp, h.cursor, h.ticking, h.pending, h.noneWaiting, h.duty⟩⟩

/-- What holds of the registers while a pull reads the score: its sequence is active, and no rest is pending,
since one would have been played instead (R101). -/
structure Engine.PullingOk (e : Engine) : Prop where
  cursor : e.seqOff.toNat ≤ e.seqLen.toNat
  ticking : e.tickIE = !e.finished
  noRest : e.staccRest = 0
  active : e.seqActive = true
  duty : 2 * e.toneDuty.toNat ≤ e.toneTop.toNat

theorem Engine.Reads.pullingOk {e e' : Engine} (h : e.Reads e') (he : e.PullingOk) : e'.PullingOk := by
  obtain ⟨hcursor, hticking, hrest, hactive, hduty⟩ := he
  cases h with
  | cursor off within => exact ⟨within hcursor, hticking, hrest, hactive, hduty⟩
  | staccato => exact ⟨hcursor, hticking, rfl, hactive, hduty⟩
  | octave | tempo | length | volume | legato | resetMusic =>
    exact ⟨hcursor, hticking, hrest, hactive, hduty⟩

/-- A pull ends with a tone that counts down, its rest pending only where it split one off, or with no
sequence active (R119, R124, R125). -/
theorem Engine.Ends.sessionOk {cfg : Config} {e e' : Engine} (h : e.Ends cfg e') (he : e.PullingOk) :
    e'.SessionOk := by
  obtain ⟨hcursor, _, hrest, hactive, _⟩ := he
  cases h with
  | item d planned =>
    refine ⟨by simpa using hcursor, rfl, fun hpend => ?_, fun _ hwait => ?_, planNote_duty planned⟩
    · cases hs : e.staccato with
      | true => simp [hs, hactive]
      | false => simp [hs, hrest] at hpend
    · cases hwait.1
  | score =>
    exact ⟨hcursor, rfl, fun hpend => absurd hrest hpend, fun _ hwait => (nomatch hwait.2), by simp⟩

/-- What a pull begins with: its sequence active, the cursor and the tone as they were, and a rest pending
only if staccato is on (R129 to R131, R142). -/
theorem PullStarts.session {cfg : Config} {e e' : Engine} {i : Option Instr} (h : PullStarts cfg e i e')
    (he : e.SessionOk) :
    e'.seqActive = true ∧ e'.seqOff.toNat ≤ e'.seqLen.toNat ∧ e'.tickIE = !e'.finished ∧
      (e'.staccRest ≠ 0 → e'.staccato = true) ∧ 2 * e'.toneDuty.toNat ≤ e'.toneTop.toNat := by
  obtain ⟨hcursor, hticking, hpending, _, hduty⟩ := he
  cases h with
  | playSeq => exact ⟨rfl, Nat.zero_le _, hticking, fun hrest => absurd rfl hrest, hduty⟩
  | playMode due | playCheck due =>
    exact ⟨(Bool.and_eq_true_iff.1 due).2, hcursor, hticking, fun hrest => (hpending hrest).1, hduty⟩
  | expire pulls =>
    exact ⟨(Bool.and_eq_true_iff.1 pulls).1, hcursor, rfl, fun hrest => (hpending hrest).1, by simp⟩

theorem staccRest_of_not_restPending {e : Engine} (hpending : e.staccRest ≠ 0 → e.staccato = true)
    (h : e.restPending = false) : e.staccRest = 0 := by
  by_contra hrest
  exact hrest (by simpa [Engine.restPending, hpending hrest] using h)

theorem AgentWrites.sessionOk {cfg : Config} {e e' : Engine} {i : Option Instr} (h : AgentWrites cfg e i e')
    (he : e.SessionOk) : e'.SessionOk := by
  have hends : ∀ p : ToneParams, 2 * p.duty.toNat ≤ p.top.toNat → (e.endSession.toneStart p).SessionOk :=
    fun p hp => ⟨he.cursor, rfl, fun hrest => absurd rfl hrest, fun _ hwait => (nomatch hwait.1), hp⟩
  cases h with
  | playFreq planned => exact hends _ (plan_duty planned)
  | playNote planned => exact hends _ (planNote_duty planned)
  | playMode mode notDue =>
    refine ⟨he.cursor, he.ticking, he.pending, fun hauto hwait => ?_, he.duty⟩
    exact Bool.eq_false_iff.1 (notDue hauto) (Bool.and_eq_true_iff.2 hwait)
  | playCheck | isPlaying => exact ⟨he.cursor, he.ticking, he.pending, he.noneWaiting, he.duty⟩
  | stop =>
    exact ⟨he.cursor, rfl, fun hrest => absurd rfl hrest, fun _ hwait => (nomatch hwait.2), by simp⟩
  | countDown => exact ⟨he.cursor, he.ticking, he.pending, he.noneWaiting, he.duty⟩
  | expire noPull =>
    refine ⟨he.cursor, rfl, he.pending, fun hauto hwait => ?_, by simp⟩
    refine Bool.eq_false_iff.1 noPull (Bool.and_eq_true_iff.2 ⟨hwait.2, beq_iff_eq.2 hauto⟩)

theorem sessionOk_stepKeeps (cfg : Config) (i : Option Instr) :
    StepKeeps cfg i Engine.PullingOk Engine.SessionOk where
  faults _ _ _ he := ⟨he.cursor, he.ticking, he.pending, he.noneWaiting, he.duty⟩
  writes _ _ h := h.sessionOk
  starts _ _ h he hnone := by
    obtain ⟨hactive, hcursor, hticking, hpending, hduty⟩ := h.session he
    exact ⟨hcursor, hticking, staccRest_of_not_restPending hpending hnone, hactive, hduty⟩
  rests _ _ h he := by
    obtain ⟨_, hcursor, _⟩ := h.session he
    exact ⟨hcursor, rfl, fun hrest => absurd rfl hrest, fun _ hwait => (nomatch hwait.1), Nat.zero_le _⟩
  reads _ _ h := h.pullingOk
  ends _ _ h := h.sessionOk
  answers _ _ he := ⟨he.cursor, he.ticking, he.pending, he.noneWaiting, he.duty⟩

theorem reset_sessionOk (cfg : Config) : (Engine.reset cfg).SessionOk :=
  ⟨Nat.zero_le _, rfl, fun hrest => absurd rfl hrest, fun _ hwait => (nomatch hwait.2), by simp⟩

/-- Settles O54: the registers keep the session through every agent step; inside a pull, where a finished note
waits, they keep `Engine.PullingOk` instead, and what ends the pull restores the session. -/
theorem agentStepsKeepTheSession : Obligations.AgentStepsKeepTheSession := by
  intro s t hs h
  have hout := step_outcome hs.noPull h
  rw [State.sessionInv_iff] at hs ⊢
  exact ⟨hout.noPull hs.1,
    hout.keeps (sessionOk_stepKeeps _ _) (fun _ => reset_sessionOk _) hs.2⟩

/-! ## The answers, the mode and the trace (R21, R37, R136) -/

/-- The answers among the events of a trace (R131, R132). -/
def answersIn (trace : List Event) : List Event :=
  trace.filter fun ev => match ev with | .resp _ => true | _ => false

/-- From `e` to `e'` no query is answered: `RESP` stays, and the events added to the trace are no answers. -/
structure Engine.Quiet (e e' : Engine) : Prop where
  resp : e'.resp = e.resp
  trace : ∃ events, e'.trace = e.trace ++ events ∧ answersIn events = []

theorem Engine.Quiet.refl (e : Engine) : e.Quiet e := ⟨rfl, [], (List.append_nil _).symm, rfl⟩

theorem Engine.Quiet.trans {e e' e'' : Engine} (h : e.Quiet e') (k : e'.Quiet e'') : e.Quiet e'' := by
  obtain ⟨hresp, evs, htrace, hevs⟩ := h
  obtain ⟨kresp, evs', ktrace, kevs⟩ := k
  refine ⟨kresp.trans hresp, evs ++ evs', by rw [ktrace, htrace, List.append_assoc], ?_⟩
  simp only [answersIn, List.filter_append, List.append_eq_nil_iff]
  exact ⟨hevs, kevs⟩

theorem Engine.Quiet.answersIn_eq {e e' : Engine} (h : e.Quiet e') :
    answersIn e'.trace = answersIn e.trace := by
  obtain ⟨_, events, htrace, hnone⟩ := h
  rw [htrace, answersIn, List.filter_append]
  exact (congrArg _ hnone).trans (List.append_nil _)

theorem Engine.Quiet.traceGrows {e e' : Engine} (h : e.Quiet e') : e.trace <+: e'.trace := by
  obtain ⟨_, events, htrace, _⟩ := h
  exact ⟨events, htrace.symm⟩

theorem Engine.Quiet.of_same {e e' : Engine} (hresp : e'.resp = e.resp) (htrace : e'.trace = e.trace) :
    e.Quiet e' :=
  ⟨hresp, [], by rw [htrace, List.append_nil], rfl⟩

theorem Engine.Reads.quiet {e e' : Engine} (h : e.Reads e') : e.Quiet e' := by
  cases h <;> exact .of_same rfl rfl

theorem Engine.Ends.quiet {cfg : Config} {e e' : Engine} (h : e.Ends cfg e') : e.Quiet e' := by
  cases h with
  | item d _ => exact ⟨e.withSplit_resp d, [.tone _], congrArg (· ++ _) (e.withSplit_trace d), rfl⟩
  | score => exact ⟨rfl, _, (e.endSequence_trace cfg).trans (List.append_assoc _ _ _), rfl⟩

theorem PullStarts.quiet {cfg : Config} {e e' : Engine} {i : Option Instr} (h : PullStarts cfg e i e') :
    e.Quiet e' := by
  cases h with
  | playSeq | playMode | playCheck => exact .of_same rfl rfl
  | expire => exact ⟨rfl, _, rfl, rfl⟩

theorem playRest_quiet (e : Engine) (cfg : Config) : e.Quiet (e.playRest cfg) := ⟨rfl, _, rfl, rfl⟩

/-- Of the agent steps that do not pull only the two queries answer. -/
theorem AgentWrites.quiet {cfg : Config} {e e' : Engine} {i : Option Instr} (h : AgentWrites cfg e i e')
    (hcheck : i ≠ some .playCheck) (hplaying : i ≠ some .isPlaying) : e.Quiet e' := by
  cases h with
  | playCheck => exact absurd rfl hcheck
  | isPlaying => exact absurd rfl hplaying
  | playMode | countDown => exact .of_same rfl rfl
  | playFreq | playNote | stop | expire => exact ⟨rfl, _, rfl, rfl⟩

theorem quiet_stepKeeps (cfg : Config) {i : Option Instr} (hcheck : i ≠ some .playCheck)
    (hplaying : i ≠ some .isPlaying) (e₀ : Engine) : StepKeeps cfg i e₀.Quiet e₀.Quiet where
  faults _ _ _ he := he.trans (.of_same rfl rfl)
  writes _ _ h he := he.trans (h.quiet hcheck hplaying)
  starts _ _ h he _ := he.trans h.quiet
  rests _ _ h he := (he.trans h.quiet).trans (playRest_quiet _ cfg)
  reads _ _ h he := he.trans h.quiet
  ends _ _ h he := he.trans h.quiet
  answers hi := absurd hi hcheck

theorem Engine.Reads.mode_eq {e e' : Engine} (h : e.Reads e') : e'.mode = e.mode := by
  cases h <;> rfl

theorem Engine.Ends.mode_eq {cfg : Config} {e e' : Engine} (h : e.Ends cfg e') : e'.mode = e.mode := by
  cases h with
  | item d _ => exact e.withSplit_mode d
  | score => rfl

theorem PullStarts.mode_eq {cfg : Config} {e e' : Engine} {i : Option Instr} (h : PullStarts cfg e i e')
    (hi : ∀ m, i ≠ some (.playMode m)) : e'.mode = e.mode := by
  cases h with
  | playMode => exact absurd rfl (hi _)
  | playSeq | playCheck | expire => rfl

theorem AgentWrites.mode_eq {cfg : Config} {e e' : Engine} {i : Option Instr} (h : AgentWrites cfg e i e')
    (hi : ∀ m, i ≠ some (.playMode m)) : e'.mode = e.mode := by
  cases h with
  | playMode m => exact absurd rfl (hi m)
  | _ => rfl

theorem mode_stepKeeps (cfg : Config) {i : Option Instr} (hi : ∀ m, i ≠ some (.playMode m)) (m₀ : Mode) :
    StepKeeps cfg i (·.mode = m₀) (·.mode = m₀) where
  faults _ _ _ he := he
  writes _ _ h he := (h.mode_eq hi).trans he
  starts _ _ h he _ := (h.mode_eq hi).trans he
  rests _ _ h he := (h.mode_eq hi).trans he
  reads _ _ h he := h.mode_eq.trans he
  ends _ _ h he := h.mode_eq.trans he
  answers _ _ he := he

theorem exec_score_keeps {P : Engine → Prop} {i : Instr} {s t : State}
    (hi : Laws.Shape.isCommand i = false) (hn : s.pull = none) (k : StepKeeps s.cfg (some i) P P)
    (h : exec i s = .next t) (hs : P s.eng) : P t.eng := by
  cases hh : s.halted with
  | true => cases (exec_of_halted hh i).symm.trans h; exact hs
  | false =>
    rcases exec_score_byteRun hi (.of_no_pull hn) h with rfl | ⟨code, rfl⟩ | hplayed
    · exact hs
    · rw [raise_of_no_pull hn]
      exact k.faults _ code (fault_eq_zero_of_live hh) hs
    · exact hplayed.keeps k.reads k.ends (fun _ h => h) hs

/-- A property that an instruction's writes keep, inside its pull and after it, is kept by the instruction. -/
theorem exec_keeps {P : Engine → Prop} {i : Instr} {s t : State} (hn : s.pull = none)
    (k : StepKeeps s.cfg (some i) P P) (h : exec i s = .next t) (hs : P s.eng) : P t.eng := by
  cases hi : Laws.Shape.isCommand i with
  | true =>
    obtain ⟨e', hstep, rfl⟩ := exec_command_agentRun hi hn h
    exact hstep.keeps k hs
  | false => exact exec_score_keeps hi hn k h hs

/-- Settles O57: among the writes of an instruction or an agent step only the queries append an answer and
only `PLAY_MODE` sets the mode. -/
theorem onlyQueriesAnswerAndOnlyPlayModeSetsMode :
    Obligations.OnlyQueriesAnswerAndOnlyPlayModeSetsMode := by
  refine ⟨fun i s t hn h => ⟨fun hcheck hplaying => ?answer, fun hmode => ?mode⟩,
    fun s t hn hreset h => ⟨fun hcheck hplaying => ?stepAnswer, fun hmode => ?stepMode⟩⟩
  case answer =>
    have hquiet : s.eng.Quiet t.eng := exec_keeps hn
      (quiet_stepKeeps _ (by simpa using hcheck) (by simpa using hplaying) _) h (.refl _)
    exact ⟨hquiet.resp, hquiet.answersIn_eq⟩
  case mode => exact exec_keeps hn (mode_stepKeeps _ (by simpa using hmode) _) h rfl
  case stepAnswer =>
    have hquiet : s.eng.Quiet t.eng := (step_outcome hn h).keeps
      (quiet_stepKeeps _ hcheck hplaying _) (fun hin => absurd hin hreset) (.refl _)
    exact ⟨hquiet.resp, hquiet.answersIn_eq⟩
  case stepMode =>
    exact (step_outcome hn h).keeps (mode_stepKeeps _ hmode _) (fun hin => absurd hin hreset) rfl

theorem AgentWrites.traceGrows {cfg : Config} {e e' : Engine} {i : Option Instr} (h : AgentWrites cfg e i e') :
    e.trace <+: e'.trace := by
  cases h with
  | playCheck | isPlaying => exact ⟨_, rfl⟩
  | playMode | countDown => exact ⟨[], List.append_nil _⟩
  | playFreq | playNote | stop | expire => exact ⟨_, rfl⟩

/-- Every write of an agent step leaves the trace or appends to it. -/
theorem traceGrows_stepKeeps (cfg : Config) (i : Option Instr) (trace : List Event) :
    StepKeeps cfg i (trace <+: ·.trace) (trace <+: ·.trace) where
  faults _ _ _ he := he
  writes _ _ h he := he.trans h.traceGrows
  starts _ _ h he _ := he.trans h.quiet.traceGrows
  rests _ _ h he := he.trans (h.quiet.trans (playRest_quiet _ cfg)).traceGrows
  reads _ _ h he := he.trans h.quiet.traceGrows
  ends _ _ h he := he.trans h.quiet.traceGrows
  answers _ _ he := he.trans ⟨_, rfl⟩

/-- Settles O58: every write of an agent step but reset's appends to the trace or leaves it. -/
theorem traceOnlyGrows : Obligations.TraceOnlyGrows := by
  intro s t hn hreset h
  exact (step_outcome hn h).keeps (traceGrows_stepKeeps _ _ _) (fun hin => absurd hin hreset)
    ⟨[], List.append_nil _⟩

/-! ## The sequence memory (R42, R50, R63) -/

/-- The parameters, the sequence memory and the inputs, which are the host's, are those of `s` in `t`. -/
def SameHost (s t : State) : Prop := t.mem = s.mem ∧ t.cfg = s.cfg ∧ t.inputs = s.inputs

theorem RaisedOrFramed.sameHost {s t : State} (h : RaisedOrFramed s t) : SameHost s t := by
  rcases h with ⟨code, rfl⟩ | hframe
  · exact ⟨rfl, rfl, rfl⟩
  · exact ⟨hframe.mem, hframe.cfg, hframe.inputs⟩

theorem runPull_sameHost {origin : Engine} {f : Engine → Engine} {s t : State}
    (h : runPull origin (s.mapEng f) = .next t) : SameHost s t := by
  obtain ⟨e', rfl, _⟩ := runPull_writes h
  exact ⟨rfl, rfl, rfl⟩

theorem pullIfDue_sameHost {origin : Engine} {f : Engine → Engine} {s t : State}
    (h : pullIfDue origin (s.mapEng f) = .next t) : SameHost s t := by
  unfold pullIfDue at h
  split at h
  · exact runPull_sameHost h
  · cases h; exact ⟨rfl, rfl, rfl⟩

theorem playPlanned_sameHost {s t : State} {planned : Except FaultCode ToneParams}
    (h : s.settle (playPlanned s planned) = .next t) : SameHost s t := by
  cases planned <;> cases h <;> exact ⟨rfl, rfl, rfl⟩

theorem answerActive_sameHost (s : State) : SameHost s s.answerActive := by
  unfold State.answerActive
  split <;> exact ⟨rfl, rfl, rfl⟩

theorem SameHost.trans {s t u : State} (h : SameHost s t) (k : SameHost t u) : SameHost s u :=
  ⟨k.1.trans h.1, k.2.1.trans h.2.1, k.2.2.trans h.2.2⟩

theorem execPlayCheck_sameHost {s t : State} (hs : s.halted = false) (h : execPlayCheck s = .next t) :
    SameHost s t := by
  rw [execPlayCheck, unlessHalted_of_live hs] at h
  split at h <;> cases h
  rename_i u hu
  exact (pullIfDue_sameHost (f := id) hu).trans (answerActive_sameHost u)

/-- No instruction writes what is the host's, in any state (R42, R50). -/
theorem exec_sameHost {i : Instr} {s t : State} (h : exec i s = .next t) : SameHost s t := by
  cases hs : s.halted with
  | true => cases (exec_of_halted hs i).symm.trans h; exact ⟨rfl, rfl, rfl⟩
  | false =>
    cases i with
    | playFreq | playNote => exact playPlanned_sameHost (next_of_live hs h)
    | playSeq => exact runPull_sameHost (next_of_live hs h)
    | playMode mode =>
      cases mode with
      | automatic => exact pullIfDue_sameHost (next_of_live hs h)
      | checkDriven => cases next_of_live hs h; exact ⟨rfl, rfl, rfl⟩
    | playCheck => exact execPlayCheck_sameHost hs h
    | isPlaying | stop | illegalCmd => cases next_of_live hs h; exact ⟨rfl, rfl, rfl⟩
    | _ => exact (exec_score_raisedOrFramed rfl hs h).sameHost

/-- A byte the host placed changes the memory at its address only, and keeps it canonical. -/
theorem write_changes_one {m : Memory} (addr : Half) (byte : Byte) (hwf : m.wf = true) (a : Nat) :
    (m.write addr.toNat byte).read a = m.read a ∨
      (a = addr.toNat ∧ (m.write addr.toNat byte).read a = byte) := by
  rw [Memory.read_write _ _ _ hwf]
  by_cases ha : a = addr.toNat
  · exact .inr ⟨ha, if_pos ha⟩
  · exact .inl (if_neg ha)

/-- Settles O59: the frame of every instruction, and of the agent steps only the placing of a byte writes the
memory. -/
theorem onlyTheHostWritesTheScoreMemory : Obligations.OnlyTheHostWritesTheScoreMemory := by
  refine ⟨fun i s t h => exec_sameHost h, fun s t hwf h => ?_⟩
  cases hp : s.pull with
  | some c =>
    obtain ⟨hmem, hcfg, _⟩ := exec_sameHost (step_of_pull hp ▸ h)
    exact ⟨hmem ▸ hwf, hcfg, fun a => .inl (by rw [hmem])⟩
  | none =>
    cases step_outcome hp h with
    | registers _ ht | restarted _ ht => subst ht; exact ⟨hwf, rfl, fun _ => .inl rfl⟩
    | @placed addr byte later hin inactive ht =>
      subst ht
      refine ⟨Memory.wf_write byte hwf addr.isLt, rfl, fun a => ?_⟩
      rcases write_changes_one addr byte hwf a with hsame | ⟨ha, hbyte⟩
      · exact .inl hsame
      · exact .inr ⟨rfl, inactive, addr, byte, later, hin, ha, hbyte⟩

/-! ## Reset (R43, R155) -/

/-- Settles O55: the registers of `State.resetWith` are the record of `Engine.reset`. -/
theorem resetGivesTheStatedValues : Obligations.ResetGivesTheStatedValues :=
  fun _ => ⟨rfl, rfl, rfl⟩

theorem resetWith_invariants (cfg : Config) :
    (State.resetWith cfg).FaultInv ∧ (State.resetWith cfg).musicOk = true ∧
      (State.resetWith cfg).SessionInv ∧ (State.resetWith cfg).mem.wf = true :=
  ⟨.of_no_pull rfl (.inl ⟨rfl, rfl⟩), (State.musicOk_of_no_pull rfl).trans (reset_musicOk cfg),
    (State.sessionInv_iff _).2 ⟨rfl, reset_sessionOk cfg⟩, State.resetWith_mem_wf cfg⟩

/-- Settles O56: the invariants hold of `Engine.reset` for every choice of the parameters. -/
theorem invariantsHoldAtReset : Obligations.InvariantsHoldAtReset :=
  ⟨resetWith_invariants, resetWith_invariants Config.reference⟩

end Sys2Proof.Machine
end

section
/-! Proofs about the sequence memory (20_memory.md): what a fetch moves past, which bytes of the memory an
instruction reads, and where a step can stop. -/

namespace Sys2Proof.Machine

open Sys2Proof

/-! ## Fetch and the space (R53, R54) -/

/-- Settles O33: a live engine runs the space as `Advance`, wherever the pull stands. -/
theorem spaceIsOnlyConsumed : Obligations.SpaceIsOnlyConsumed :=
  fun s hs => unlessHalted_of_live hs (.next s.advance)

theorem movedBy_zero (s : State) : s.movedBy 0 = s := by
  simp [State.movedBy]

theorem offset_add (o : Half) (j k : Nat) :
    o + BitVec.ofNat 16 j + BitVec.ofNat 16 k = o + BitVec.ofNat 16 (j + k) := by
  rw [BitVec.add_assoc, ← BitVec.ofNat_add]

theorem movedBy_movedBy (s : State) (j k : Nat) : (s.movedBy j).movedBy k = s.movedBy (j + k) := by
  simp only [State.movedBy, offset_add]

/-- Before the end of the score `Advance` is the move by one byte (R54). -/
theorem advance_eq_movedBy {s : State} (h : s.eng.seqOff.toNat < s.eng.seqLen.toNat) :
    s.advance = s.movedBy 1 := by
  have hoff : s.advance.eng.seqOff = s.eng.seqOff + BitVec.ofNat 16 1 := by
    apply BitVec.eq_of_toNat_eq
    have hlen := s.eng.seqLen.isLt
    rw [advance_seqOff_of_lt s h, BitVec.toNat_add, BitVec.toNat_ofNat]
    omega
  rw [(advance_moves s).same, hoff]
  rfl

/-- At and past its end the score reads the end sentinel, which is no space (R52). -/
theorem scoreByte_of_remaining_eq_zero {s : State} (h : s.remaining = 0) : s.scoreByte = 0x00 :=
  State.byteAt_past s _ (Nat.sub_eq_zero_iff_le.1 h)

theorem remaining_pos_of_space {s : State} (h : s.scoreByte = 0x20) : 0 < s.remaining := by
  refine Nat.pos_of_ne_zero fun h0 => ?_
  rw [scoreByte_of_remaining_eq_zero h0] at h
  exact absurd h (by decide)

theorem remaining_advance (s : State) (h : 0 < s.remaining) :
    s.advance.remaining + 1 = s.remaining := by
  have hlt : s.eng.seqOff.toNat < s.eng.seqLen.toNat := Nat.lt_of_sub_pos h
  simp only [State.remaining, State.advance_seqLen, advance_seqOff_of_lt s hlt]
  omega

/-- `t` is `s` past the spaces that stand at the cursor, and past nothing else. -/
def SpacesSkipped (s t : State) : Prop :=
  ∃ k, k ≤ s.remaining ∧ t = s.movedBy k ∧
    (∀ j < k, s.byteAt (s.eng.seqOff + BitVec.ofNat 16 j) = 0x20) ∧ t.scoreByte ≠ 0x20

theorem SpacesSkipped.of_no_space {s : State} (h : s.scoreByte ≠ 0x20) : SpacesSkipped s s :=
  ⟨0, Nat.zero_le _, (movedBy_zero s).symm, nofun, h⟩

/-- A space at the cursor is one more to skip. -/
theorem SpacesSkipped.of_space {s t : State} (hspace : s.scoreByte = 0x20)
    (h : SpacesSkipped s.advance t) : SpacesSkipped s t := by
  have hpos := remaining_pos_of_space hspace
  have hrem := remaining_advance s hpos
  rw [advance_eq_movedBy (Nat.lt_of_sub_pos hpos)] at h hrem
  obtain ⟨k, hk, rfl, hskipped, hstop⟩ := h
  refine ⟨1 + k, by omega, movedBy_movedBy s 1 k, fun j hj => ?_, hstop⟩
  cases j with
  | zero => simpa [State.scoreByte] using hspace
  | succ j =>
    have hj' := hskipped j (by omega)
    rw [Nat.add_comm j 1, ← offset_add]
    exact hj'

theorem skipSpacesLoop_skips (k : Nat) {s : State} (hk : s.remaining ≤ k) :
    SpacesSkipped s (skipSpacesLoop k s) := by
  induction k generalizing s with
  | zero =>
    refine .of_no_space fun hspace => ?_
    have := remaining_pos_of_space hspace
    omega
  | succ k ih =>
    unfold skipSpacesLoop
    split
    · rename_i hspace
      have := remaining_advance s (remaining_pos_of_space hspace)
      exact .of_space hspace (ih (by omega))
    · rename_i hspace
      exact .of_no_space hspace

/-- Settles O34: by induction over the bytes that remain, each of them a space or the end of the fetch. -/
theorem fetchSkipsExactlyTheSpaces : Obligations.FetchSkipsExactlyTheSpaces := by
  intro s _
  obtain ⟨k, hk, hmoved, hskipped, hstop⟩ := skipSpacesLoop_skips s.remaining (le_refl s.remaining)
  refine ⟨k, hk, hmoved, hskipped, hstop, ?_⟩
  rw [State.skipSpaces, hmoved]
  rfl

/-! ## The same score in another memory (R50 to R52) -/

/-- The state with `m` for its sequence memory. -/
def State.withMem (s : State) (m : Memory) : State := { s with mem := m }

theorem State.byteAt_withMem (s : State) (m : Memory) (o : Half) : (s.withMem m).byteAt o =
    if s.eng.seqLen.toNat ≤ o.toNat then 0x00 else m.read (s.eng.seqBase + o).toNat := rfl

/-- `m` agrees with the sequence memory of `s` on every byte of the score (R52). -/
def State.SameScore (s : State) (m : Memory) : Prop := ∀ o, (s.withMem m).byteAt o = s.byteAt o

/-- The score's bytes depend on the memory and on the window of the score in it (R51, R52). -/
theorem State.SameScore.of_window {s t : State} {m : Memory} (h : s.SameScore m) (hmem : t.mem = s.mem)
    (hbase : t.eng.seqBase = s.eng.seqBase) (hlen : t.eng.seqLen = s.eng.seqLen) : t.SameScore m := by
  intro o
  have ho := h o
  rw [State.byteAt_withMem, State.byteAt] at ho ⊢
  rw [hmem, hbase, hlen]
  exact ho

theorem CursorMoved.sameScore {s t : State} {m : Memory} (h : CursorMoved s t) (hs : s.SameScore m) :
    t.SameScore m :=
  hs.of_window h.mem (by rw [h.eng]) h.seqLen

/-- A pull that reads on keeps the window of the score (R102, R113 to R118). -/
theorem Engine.ReadsOn.window {e e' : Engine} (h : e.ReadsOn e') :
    e'.seqBase = e.seqBase ∧ e'.seqLen = e.seqLen := by
  refine h.keeps (P := fun x => x.seqBase = e.seqBase ∧ x.seqLen = e.seqLen) ?_ ⟨rfl, rfl⟩
  intro x y hread hx
  cases hread <;> exact hx

/-! ### Fetches -/

section
variable {s : State} {m : Memory}

theorem scoreByte_withMem (h : s.SameScore m) : (s.withMem m).scoreByte = s.scoreByte := h _

theorem skipSpacesLoop_withMem (k : Nat) (h : s.SameScore m) :
    skipSpacesLoop k (s.withMem m) = (skipSpacesLoop k s).withMem m := by
  induction k generalizing s with
  | zero => rfl
  | succ k ih =>
    unfold skipSpacesLoop
    rw [scoreByte_withMem h]
    split
    · exact ih ((advance_moves s).sameScore h)
    · rfl

theorem skipSpaces_withMem (h : s.SameScore m) :
    (s.withMem m).skipSpaces = s.skipSpaces.withMem m :=
  skipSpacesLoop_withMem _ h

/-- The character a fetch gives is the same. -/
theorem fetched_withMem (h : s.SameScore m) : (s.skipSpaces.withMem m).char = s.skipSpaces.char :=
  congrArg foldCase (scoreByte_withMem ((skipSpaces_moves s).sameScore h))

theorem nextToken_withMem (h : s.SameScore m) : (s.withMem m).nextToken = s.nextToken := by
  have hnext : s.advance.SameScore m := (advance_moves s).sameScore h
  have hsecond : (s.advance.withMem m).skipSpaces.scoreByte = s.advance.skipSpaces.scoreByte := by
    rw [skipSpaces_withMem hnext]
    exact scoreByte_withMem ((skipSpaces_moves _).sameScore hnext)
  exact congrArg₂ decodeToken (scoreByte_withMem h) hsecond

/-! ### The loops over the score -/

/-- What a loop over the score answers, with `m` for the sequence memory of its state. -/
def Read.withMem {α : Type} (m : Memory) (r : α × State) : α × State := (r.1, r.2.withMem m)

theorem numberLoop_withMem (k n : Nat) (h : s.SameScore m) :
    numberLoop k n (s.withMem m) = (numberLoop k n s).map (Read.withMem m) := by
  induction k generalizing n s with
  | zero => simp only [numberLoop, skipSpaces_withMem h]; rfl
  | succ k ih =>
    simp only [numberLoop, skipSpaces_withMem h, fetched_withMem h]
    cases digitValue s.skipSpaces.char with
    | none => rfl
    | some v =>
      cases hd : addDigit n v with
      | error code => simp only [hd]; rfl
      | ok n' => simp only [hd]; exact ih n' ((fetchAdvance_moves s).sameScore h)

theorem sharpsLoop_withMem (k : Nat) (p : Pitch) (h : s.SameScore m) :
    sharpsLoop k p (s.withMem m) = Read.withMem m (sharpsLoop k p s) := by
  induction k generalizing p s with
  | zero => simp only [sharpsLoop, skipSpaces_withMem h]; rfl
  | succ k ih =>
    simp only [sharpsLoop, skipSpaces_withMem h, fetched_withMem h]
    split
    · exact ih _ ((fetchAdvance_moves s).sameScore h)
    · rfl

theorem flatsLoop_withMem (k : Nat) (p : Pitch) (h : s.SameScore m) :
    flatsLoop k p (s.withMem m) = Read.withMem m (flatsLoop k p s) := by
  induction k generalizing p s with
  | zero => simp only [flatsLoop, skipSpaces_withMem h]; rfl
  | succ k ih =>
    simp only [flatsLoop, skipSpaces_withMem h, fetched_withMem h]
    split
    · exact ih _ ((fetchAdvance_moves s).sameScore h)
    · rfl

theorem dotsLoop_withMem (k d bonus : Nat) (h : s.SameScore m) :
    dotsLoop k d bonus (s.withMem m) = (dotsLoop k d bonus s).map (Read.withMem m) := by
  induction k generalizing d bonus s with
  | zero => simp only [dotsLoop, skipSpaces_withMem h]; rfl
  | succ k ih =>
    simp only [dotsLoop, skipSpaces_withMem h, fetched_withMem h]
    split
    · cases hd : addDot d bonus with
      | error code => rfl
      | ok d' => exact ih _ _ ((fetchAdvance_moves s).sameScore h)
    · rfl

theorem readNumber_withMem (n : Nat) (h : s.SameScore m) :
    readNumber n (s.withMem m) = (readNumber n s).map (Read.withMem m) := numberLoop_withMem _ n h

theorem readSharps_withMem (p : Pitch) (h : s.SameScore m) :
    readSharps p (s.withMem m) = Read.withMem m (readSharps p s) := sharpsLoop_withMem _ p h

theorem readFlats_withMem (p : Pitch) (h : s.SameScore m) :
    readFlats p (s.withMem m) = Read.withMem m (readFlats p s) := flatsLoop_withMem _ p h

theorem readDots_withMem (d bonus : Nat) (h : s.SameScore m) :
    readDots d bonus (s.withMem m) = (readDots d bonus s).map (Read.withMem m) :=
  dotsLoop_withMem _ d bonus h

end

/-! ### Tokens -/

/-- `f` does the same where another memory agrees on the score's bytes. -/
def ReadsScoreOnly (f : State → Except FaultCode State) : Prop :=
  ∀ (s : State) (m : Memory), s.SameScore m → f (s.withMem m) = (f s).map (State.withMem · m)

theorem issueItem_readsScoreOnly (p : Pitch) (d : Nat) : ReadsScoreOnly (issueItem p d) := by
  intro s m _
  unfold issueItem
  rw [show planItem (s.withMem m) p d = planItem s p d from rfl]
  cases planItem s p d <;> rfl

theorem tailFromDots_readsScoreOnly (p : Pitch) (d bonus : Nat) :
    ReadsScoreOnly (tailFromDots p d bonus) := by
  intro s m h
  unfold tailFromDots
  rw [readDots_withMem d bonus h]
  cases hr : readDots d bonus s with
  | error code => rfl
  | ok r => exact issueItem_readsScoreOnly p _ _ m ((readDots_moves hr).sameScore h)

theorem tailFromDenominator_readsScoreOnly (p : Pitch) (n : Nat) :
    ReadsScoreOnly (tailFromDenominator p n) := by
  intro s m h
  unfold tailFromDenominator
  rw [readNumber_withMem n h]
  cases hr : readNumber n s with
  | error code => rfl
  | ok r =>
    simp only [Except.map, Read.withMem]
    split
    · rfl
    · exact tailFromDots_readsScoreOnly p _ _ _ m ((readNumber_moves hr).sameScore h)

theorem tailFromDuration_readsScoreOnly (p : Pitch) : ReadsScoreOnly (tailFromDuration p) := by
  intro s m h
  have hchar : (s.withMem m).char = s.char := congrArg foldCase (scoreByte_withMem h)
  have hcfg : (s.withMem m).cfg = s.cfg := rfl
  unfold tailFromDuration
  rw [hchar, hcfg]
  split
  · exact tailFromDenominator_readsScoreOnly p 0 s m h
  · exact tailFromDots_readsScoreOnly p _ _ s m h

theorem tailFromFlats_readsScoreOnly (p : Pitch) : ReadsScoreOnly (tailFromFlats p) := by
  intro s m h
  unfold tailFromFlats
  rw [readFlats_withMem p h]
  exact tailFromDuration_readsScoreOnly _ _ m ((readFlats_moves p s).sameScore h)

/-- The tail of a note or a rest letter reads the score and nothing else (R121 to R125). -/
theorem tailFromSharps_readsScoreOnly (p : Pitch) : ReadsScoreOnly (tailFromSharps p) := by
  intro s m h
  unfold tailFromSharps
  rw [readSharps_withMem p h]
  exact tailFromFlats_readsScoreOnly _ _ m ((readSharps_moves p s).sameScore h)

theorem applySetting_readsScoreOnly (setting : Setting) (n : Nat) :
    ReadsScoreOnly (applySetting setting n) := by
  intro s m _
  cases setting with
  | octave | volume => rfl
  | tempo =>
    simp only [applySetting, applyTempo]
    split
    · rfl
    · split <;> rfl
  | length =>
    simp only [applySetting, applyLength]
    split <;> rfl

theorem settingFromNumber_readsScoreOnly (setting : Setting) (n : Nat) :
    ReadsScoreOnly (settingFromNumber setting n) := by
  intro s m h
  unfold settingFromNumber
  rw [readNumber_withMem n h]
  cases hr : readNumber n s with
  | error code => rfl
  | ok r => exact applySetting_readsScoreOnly setting _ _ m ((readNumber_moves hr).sameScore h)

theorem resumeAt_readsScoreOnly (place : Place) : ReadsScoreOnly (resumeAt place) := by
  cases place with
  | tokens => exact fun _ _ _ => rfl
  | number setting n => exact settingFromNumber_readsScoreOnly setting n
  | sharps p => exact tailFromSharps_readsScoreOnly p
  | flats p => exact tailFromFlats_readsScoreOnly p
  | denominator p n => exact tailFromDenominator_readsScoreOnly p n
  | dots p d bonus => exact tailFromDots_readsScoreOnly p d bonus

theorem style_readsScoreOnly (f : Engine → Engine) :
    ReadsScoreOnly fun s => .ok (s.consumeSecond.mapEng f) := by
  intro s m h
  simp only [State.consumeSecond, skipSpaces_withMem h]
  rfl

/-! ### Score bytes -/

/-- Wherever a place accepts the byte, its effect reads the score only. -/
def EffectReadsScoreOnly (effect : Place → Option (State → Except FaultCode State)) : Prop :=
  ∀ place f, effect place = some f → ReadsScoreOnly f

theorem sharpEffect_readsScoreOnly : EffectReadsScoreOnly sharpEffect := by
  intro place f h
  cases place <;> cases h
  exact fun _ _ _ => rfl

theorem flatEffect_readsScoreOnly : EffectReadsScoreOnly flatEffect := by
  intro place f h
  cases place <;> cases h <;> exact fun _ _ _ => rfl

theorem digitEffect_readsScoreOnly (v : Nat) : EffectReadsScoreOnly (digitEffect v) := by
  intro place f h
  cases place with
  | number _ n | denominator _ n =>
    cases h
    intro s m _
    cases hd : addDigit n v <;> rfl
  | _ => cases h

theorem dotEffect_readsScoreOnly : EffectReadsScoreOnly dotEffect := by
  intro place f h
  cases place with
  | dots p d bonus =>
    cases h
    intro s m _
    cases hd : addDot d bonus <;> rfl
  | _ => cases h

/-- `b` answers what `a` answers, with `m` for the sequence memory. -/
def Follows (m : Memory) (a b : Answer) : Prop := ∀ t, a = .next t → b = .next (t.withMem m)

theorem settle_follows {s : State} {m : Memory} {r r' : Except FaultCode State}
    (h : r' = r.map (State.withMem · m)) : Follows m (s.settle r) ((s.withMem m).settle r') := by
  subst h
  cases r <;> rintro _ ⟨⟩ <;> rfl

theorem unlessHalted_follows {s : State} {m : Memory} {a b : Answer} (h : Follows m a b) :
    Follows m (s.unlessHalted a) ((s.withMem m).unlessHalted b) := by
  cases hs : s.halted with
  | true =>
    rw [unlessHalted_of_halted hs, unlessHalted_of_halted (s := s.withMem m) hs]
    rintro _ ⟨⟩
    rfl
  | false => rwa [unlessHalted_of_live hs, unlessHalted_of_live (s := s.withMem m) hs]

theorem runByte_follows {effect : Place → Option (State → Except FaultCode State)}
    (he : EffectReadsScoreOnly effect) {s : State} {m : Memory} (h : s.SameScore m) :
    Follows m (runByte effect s) (runByte effect (s.withMem m)) := by
  have hplace : (s.withMem m).currentPull.place = s.currentPull.place := rfl
  refine unlessHalted_follows (settle_follows ?_)
  rw [hplace]
  cases hf : effect s.currentPull.place with
  | some f => exact he _ f hf s.opened.advance m h
  | none => exact resumeAt_readsScoreOnly s.currentPull.place s.opened m h

theorem runToken_follows {f : State → Except FaultCode State} (hf : ReadsScoreOnly f) {s : State}
    {m : Memory} (h : s.SameScore m) : Follows m (runToken f s) (runToken f (s.withMem m)) := by
  refine runByte_follows (fun place g hg => ?_) h
  cases place <;> cases hg
  exact hf

theorem noteToken_readsScoreOnly (pc : Nat) : ReadsScoreOnly (noteToken pc) := by
  intro s m h
  have hoct : (s.withMem m).tmpOct = s.tmpOct := rfl
  unfold noteToken
  rw [hoct]
  exact tailFromSharps_readsScoreOnly _ s m h

theorem settingToken_readsScoreOnly (setting : Setting) : ReadsScoreOnly (settingToken setting) :=
  settingFromNumber_readsScoreOnly setting 0

theorem execSpace_follows (s : State) (m : Memory) :
    Follows m (execSpace s) (execSpace (s.withMem m)) :=
  unlessHalted_follows (by rintro _ ⟨⟩; rfl)

/-- Every score byte reads the score only, in every state. -/
theorem exec_score_follows {i : Instr} (hi : Laws.Shape.isCommand i = false) {s : State} {m : Memory}
    (h : s.SameScore m) : Follows m (exec i s) (exec i (s.withMem m)) := by
  cases i with
  | playFreq | playNote | playSeq | playMode | playCheck | isPlaying | stop | illegalCmd => cases hi
  | octaveUp | octaveDown | resetMusic | terminator => exact runToken_follows (fun _ _ _ => rfl) h
  | noteA | noteB | noteC | noteD | noteE | noteF | noteG =>
    exact runToken_follows (noteToken_readsScoreOnly _) h
  | rest => exact runToken_follows (tailFromSharps_readsScoreOnly _) h
  | setOctave | setTempo | setLength | setVolume =>
    exact runToken_follows (settingToken_readsScoreOnly _) h
  | legato | staccato => exact runToken_follows (style_readsScoreOnly _) h
  | sharpPlus | sharpHash => exact runByte_follows sharpEffect_readsScoreOnly h
  | flat => exact runByte_follows flatEffect_readsScoreOnly h
  | digitLow | digitHigh => exact runByte_follows (digitEffect_readsScoreOnly _) h
  | dot => exact runByte_follows dotEffect_readsScoreOnly h
  | space => exact execSpace_follows s m

/-! ### Pulls -/

theorem execToken_of_score {i : Instr} (hi : Laws.Shape.isCommand i = false) (s : State) :
    execToken i s = exec i s := by
  cases i with
  | playFreq | playNote | playSeq | playMode | playCheck | isPlaying | stop | illegalCmd => cases hi
  | _ => rfl

theorem nextToken_isCommand (s : State) : Laws.Shape.isCommand s.nextToken = false :=
  decodeToken_isCommand _ _

theorem execToken_nextToken (s : State) : execToken s.nextToken s = exec s.nextToken s :=
  execToken_of_score (nextToken_isCommand s) s

theorem runToken_answers (f : State → Except FaultCode State) (s : State) :
    ∃ t, runToken f s = .next t :=
  runByte_answers _ s

theorem unlessHalted_answers {s : State} {r : Answer} (h : s.halted = false → ∃ t, r = .next t) :
    ∃ t, s.unlessHalted r = .next t := by
  cases hs : s.halted with
  | true => exact ⟨s, unlessHalted_of_halted hs r⟩
  | false => rw [unlessHalted_of_live hs]; exact h hs

theorem execSpace_answers (s : State) : ∃ t, execSpace s = .next t :=
  unlessHalted_answers fun _ => ⟨_, rfl⟩

/-- Every score byte answers a next state, in every state. -/
theorem exec_score_answers {i : Instr} (hi : Laws.Shape.isCommand i = false) (s : State) :
    ∃ t, exec i s = .next t := by
  cases i with
  | playFreq | playNote | playSeq | playMode | playCheck | isPlaying | stop | illegalCmd => cases hi
  | space => exact execSpace_answers s
  | sharpPlus | sharpHash | flat | digitLow | digitHigh | dot => exact runByte_answers _ s
  | _ => exact runToken_answers _ s

theorem exec_nextToken_answers (s : State) : ∃ t, exec s.nextToken s = .next t :=
  exec_score_answers (nextToken_isCommand s) s

/-- The loop stops where the pull is over. -/
theorem pullLoop_of_closed {s : State} (h : s.pull = none) (k : Nat) : pullLoop k s = .next s := by
  cases k <;> simp [pullLoop, h]

/-- While the pull is in progress the loop runs the score byte at the cursor. -/
theorem pullLoop_of_open {s u : State} {c : PullState} (hc : s.pull = some c)
    (hu : exec s.nextToken s = .next u) (k : Nat) : pullLoop (k + 1) s = pullLoop k u := by
  simp [pullLoop, hc, execToken_nextToken, hu]

theorem Played.sameScore {s t : State} {c : PullState} {m : Memory} (h : Played s t)
    (hmem : t.mem = s.mem) (hs : s.SameScore m) (hc : t.pull = some c) : t.SameScore m := by
  cases h with
  | on reads _ _ =>
    obtain ⟨hbase, hlen⟩ := reads.window
    exact hs.of_window hmem hbase hlen
  | ended _ _ closed => cases closed.symm.trans hc

theorem pullLoop_follows_of_closed {s : State} {m : Memory} (h : s.pull = none) (k : Nat) :
    Follows m (pullLoop k s) (pullLoop k (s.withMem m)) := by
  rw [pullLoop_of_closed h, pullLoop_of_closed (s := s.withMem m) h]
  rintro _ ⟨⟩
  rfl

/-- A whole pull reads the score only: each of its bytes does, and keeps the window. -/
theorem pullLoop_follows {m : Memory} (k : Nat) {s : State}
    (hscore : ∀ c, s.pull = some c → s.SameScore m) (hfits : s.PlaceFits) :
    Follows m (pullLoop k s) (pullLoop k (s.withMem m)) := by
  induction k generalizing s with
  | zero =>
    cases hp : s.pull with
    | none => exact pullLoop_follows_of_closed hp _
    | some c => simp [pullLoop, hp, Follows]
  | succ k ih =>
    cases hp : s.pull with
    | none => exact pullLoop_follows_of_closed hp _
    | some c =>
      have hs : s.SameScore m := hscore c hp
      have hi := nextToken_isCommand s
      obtain ⟨u, hu⟩ : ∃ u, exec s.nextToken s = .next u := exec_nextToken_answers s
      have hu' : exec (s.withMem m).nextToken (s.withMem m) = .next (u.withMem m) := by
        rw [nextToken_withMem hs]
        exact exec_score_follows hi hs u hu
      rw [pullLoop_of_open hp hu, pullLoop_of_open (s := s.withMem m) hp hu']
      rcases exec_score_of_pull hi hp hfits hu with ⟨code, rfl⟩ | ⟨hframe, hplayed⟩
      · have hclosed : (s.raise code).pull = none := State.raise_pull s code
        exact ih (fun _ hc => nomatch hclosed.symm.trans hc) (.of_no_pull hclosed)
      · exact ih (fun _ hc => hplayed.sameScore hframe.mem hs hc) hplayed.placeFits

/-! ### Host commands -/

theorem runPull_follows {s : State} {m : Memory} (origin : Engine) (h : s.SameScore m) :
    Follows m (runPull origin s) (runPull origin (s.withMem m)) := by
  have hrest : (s.withMem m).eng.restPending = s.eng.restPending := rfl
  unfold runPull
  rw [hrest]
  split
  · exact settle_follows (s := s.openPull origin) (by rw [playPendingRest_eq, playPendingRest_eq]; rfl)
  · exact pullLoop_follows (s := s.openPull origin) _ (fun _ _ => h)
      (.of_some (State.openPull_pull s origin) rfl)

theorem pullIfDue_follows {s : State} {m : Memory} (origin : Engine) (h : s.SameScore m) :
    Follows m (pullIfDue origin s) (pullIfDue origin (s.withMem m)) := by
  have hdue : (s.withMem m).eng.pullDue = s.eng.pullDue := rfl
  unfold pullIfDue
  rw [hdue]
  split
  · exact runPull_follows origin h
  · rintro _ ⟨⟩; rfl

theorem playPlanned_withMem (s : State) (m : Memory) (planned : Except FaultCode ToneParams) :
    playPlanned (s.withMem m) planned = (playPlanned s planned).map (State.withMem · m) := by
  cases planned <;> rfl

theorem answerActive_withMem (s : State) (m : Memory) :
    (s.withMem m).answerActive = s.answerActive.withMem m := by
  have hhalted : (s.withMem m).halted = s.halted := rfl
  unfold State.answerActive
  rw [hhalted]
  split <;> rfl

theorem execPlayMode_follows (mode : Mode) {s : State} {m : Memory} (h : s.SameScore m) :
    Follows m (execPlayMode mode s) (execPlayMode mode (s.withMem m)) := by
  refine unlessHalted_follows ?_
  cases mode with
  | automatic => exact pullIfDue_follows (s := s.mapEng fun e => e.setMode .automatic) s.eng h
  | checkDriven => rintro _ ⟨⟩; rfl

theorem execPlayCheck_follows {s : State} {m : Memory} (h : s.SameScore m) :
    Follows m (execPlayCheck s) (execPlayCheck (s.withMem m)) := by
  refine unlessHalted_follows fun t ht => ?_
  split at ht <;> cases ht
  rename_i u hu
  have hpull : pullIfDue (s.withMem m).eng (s.withMem m) = _ := pullIfDue_follows s.eng h u hu
  rw [hpull, ← answerActive_withMem]

/-- The window of the score an instruction reads: `PLAY_SEQ` sets up its own (R129). -/
def scoreWindow (i : Instr) (s : State) : State :=
  match i with
  | .playSeq base len => s.mapEng fun e => e.startScore base len
  | _ => s

/-- Every instruction reads the score only, in every state. -/
theorem exec_follows (i : Instr) {s : State} {m : Memory} (h : (scoreWindow i s).SameScore m) :
    Follows m (exec i s) (exec i (s.withMem m)) := by
  cases i with
  | playFreq | playNote => exact unlessHalted_follows (settle_follows (playPlanned_withMem s m _))
  | playSeq base len => exact unlessHalted_follows (runPull_follows s.eng h)
  | playMode mode => exact execPlayMode_follows mode h
  | playCheck => exact execPlayCheck_follows h
  | isPlaying | stop => exact unlessHalted_follows (by rintro _ ⟨⟩; rfl)
  | illegalCmd => exact unlessHalted_follows (settle_follows rfl)
  | _ => exact exec_score_follows rfl h

/-- Settles O60: an instruction run on two memories that agree on the score's bytes, by the case split over
the instructions and, inside a pull, the induction over its bytes. -/
theorem bytesOutsideTheScoreAreNeverRead : Obligations.BytesOutsideTheScoreAreNeverRead := by
  intro i s t m hwindow h
  refine exec_follows i (m := m) ?_ t h
  cases i <;> exact hwindow

/-! ## Every pull comes to an end (R100, R119) -/

theorem State.currentPull_place (s : State) :
    s.currentPull.place = (s.pull.map PullState.place).getD .tokens := by
  cases h : s.pull <;> simp [State.currentPull, h]

theorem advance_within (s : State) : s.advance.eng.seqOff.toNat ≤ s.advance.eng.seqLen.toNat := by
  rw [State.advance_seqOff, State.advance_seqLen, BitVec.toNat_ofNat]
  exact (Nat.mod_le _ _).trans (Nat.min_le_right _ _)

/-- The pull of `t` is over, or stands at the token loop with no more of the score to read than `s` has. -/
def BackAtLoop (s t : State) : Prop :=
  t.pull = none ∨ (t.currentPull.place = .tokens ∧ t.remaining ≤ s.remaining)

theorem BackAtLoop.of_moved {s t u : State} (h : CursorMoved s t)
    (hs : s.eng.seqOff.toNat ≤ s.eng.seqLen.toNat) (k : BackAtLoop t u) : BackAtLoop s u := by
  refine k.imp_right fun ⟨hplace, hrem⟩ => ⟨hplace, hrem.trans ?_⟩
  rw [State.remaining, h.seqLen]
  exact Nat.sub_le_sub_left (h.within hs).1 _

/-- Registers other than the cursor do not move the pull. -/
theorem backAtLoop_mapEng {s : State} {f : Engine → Engine} (hs : s.currentPull.place = .tokens)
    (hlen : (f s.eng).seqLen = s.eng.seqLen) (hoff : (f s.eng).seqOff = s.eng.seqOff) :
    BackAtLoop s (s.mapEng f) := by
  refine .inr ⟨?_, ?_⟩
  · rwa [State.currentPull_place] at hs ⊢
  · rw [State.remaining, State.mapEng_eng, hlen, hoff, State.remaining]

theorem place_withTmpOct (s : State) (oct : Int) :
    (s.withTmpOct oct).currentPull.place = s.currentPull.place := by
  simp [State.currentPull_place, Function.comp_def]

theorem place_atPlace_tokens (s : State) : (s.atPlace .tokens).currentPull.place = .tokens := by
  cases h : s.pull <;> simp [State.currentPull_place, h]

theorem BackAtLoop.withTmpOct {s t : State} (h : BackAtLoop s t) (oct : Int) :
    BackAtLoop s (t.withTmpOct oct) := by
  rcases h with hclosed | ⟨hplace, hrem⟩
  · exact .inl (by rw [State.withTmpOct_pull, hclosed]; rfl)
  · exact .inr ⟨(place_withTmpOct t oct).trans hplace, hrem⟩

/-- Run at the token loop, `f` comes back to it or ends the pull (R100). -/
def ReturnsToLoop (f : State → Except FaultCode State) : Prop :=
  ∀ s t : State, s.currentPull.place = .tokens → s.eng.seqOff.toNat ≤ s.eng.seqLen.toNat →
    f s = .ok t → BackAtLoop s t

theorem withTmpOct_returnsToLoop (oct : State → Int) :
    ReturnsToLoop fun s => .ok (s.withTmpOct (oct s)) := by
  rintro s _ hs _ ⟨⟩
  exact .withTmpOct (.inr ⟨hs, le_rfl⟩) _

theorem tailFromSharps_returnsToLoop (p : Pitch) : ReturnsToLoop (tailFromSharps p) := by
  intro s t _ _ h
  obtain ⟨_, _, _, _, _, _, rfl⟩ := tailFromSharps_ok h
  exact .inl rfl

theorem noteToken_returnsToLoop (pc : Nat) : ReturnsToLoop (noteToken pc) :=
  fun s => tailFromSharps_returnsToLoop _ s

theorem applySetting_backAtLoop {setting : Setting} {n : Nat} {s t : State}
    (h : applySetting setting n s = .ok t) : BackAtLoop s t := by
  have hplace : (s.atPlace .tokens).currentPull.place = .tokens := place_atPlace_tokens s
  have hback : ∀ f : Engine → Engine, (f s.eng).seqLen = s.eng.seqLen →
      (f s.eng).seqOff = s.eng.seqOff → BackAtLoop s ((s.atPlace .tokens).mapEng f) :=
    fun _ hlen hoff => backAtLoop_mapEng hplace hlen hoff
  rcases applySetting_ok h with ⟨_, rfl⟩ | ⟨_, _, _, rfl⟩ | ⟨_, _, rfl⟩ | ⟨_, rfl⟩
  · exact (hback _ rfl rfl).withTmpOct _
  all_goals exact hback _ rfl rfl

theorem settingToken_returnsToLoop (setting : Setting) : ReturnsToLoop (settingToken setting) := by
  intro s t _ hwithin h
  obtain ⟨m, u, hu, _, hset⟩ := settingFromNumber_ok (Nat.zero_le _) h
  exact .of_moved hu hwithin (applySetting_backAtLoop hset)

theorem style_returnsToLoop {f : Engine → Engine} (hlen : ∀ e, (f e).seqLen = e.seqLen)
    (hoff : ∀ e, (f e).seqOff = e.seqOff) :
    ReturnsToLoop fun s => .ok (s.consumeSecond.mapEng f) := by
  rintro s _ hs hwithin ⟨⟩
  have hmoved : CursorMoved s s.consumeSecond := fetchAdvance_moves s
  refine .of_moved hmoved hwithin (backAtLoop_mapEng ?_ (hlen _) (hoff _))
  rwa [State.currentPull_place, hmoved.pull, ← State.currentPull_place]

theorem resetMusic_returnsToLoop :
    ReturnsToLoop fun s => .ok ((s.mapEng Engine.resetMusic).withTmpOct 4) := by
  rintro s _ hs _ ⟨⟩
  exact (backAtLoop_mapEng hs rfl rfl).withTmpOct 4

theorem endOfScore_returnsToLoop : ReturnsToLoop fun s => .ok (endOfScore s) := by
  rintro s _ _ _ ⟨⟩
  exact .inl rfl

/-- A token run at the token loop consumes its letter first (R100). -/
theorem runToken_backAtLoop {f : State → Except FaultCode State} (hf : ReturnsToLoop f) {s t : State}
    (hs : s.halted = false) (hp : s.currentPull.place = .tokens) (h : runToken f s = .next t) :
    BackAtLoop s.advance t := by
  rw [runToken_at_tokens hs hp] at h
  rcases settle_next h with hok | ⟨code, _, rfl⟩
  · exact hf s.opened.advance t hp (advance_within _) hok
  · exact .inl rfl

/-- A byte that has its place inside a token ends the pull at the token loop (R119). -/
theorem runByte_ends {effect : Place → Option (State → Except FaultCode State)}
    (he : effect .tokens = none) {s t : State} (hs : s.halted = false)
    (hp : s.currentPull.place = .tokens) (h : runByte effect s = .next t) : t.pull = none := by
  rcases runByte_next h with ⟨hh, _⟩ | ⟨_, ⟨code, rfl⟩ | ⟨f, hf, _⟩ | ⟨_, hresume⟩⟩
  · cases hs.symm.trans hh
  · rfl
  · rw [hp, he] at hf; cases hf
  · rw [hp] at hresume; cases hresume; rfl

/-- Every score byte run at the token loop is consumed, and leads back to it or ends the pull (R100). -/
theorem exec_score_backAtLoop {i : Instr} (hi : Laws.Shape.isCommand i = false) {s t : State}
    (hs : s.halted = false) (hp : s.currentPull.place = .tokens) (h : exec i s = .next t) :
    BackAtLoop s.advance t := by
  cases i with
  | playFreq | playNote | playSeq | playMode | playCheck | isPlaying | stop | illegalCmd => cases hi
  | octaveUp | octaveDown => exact runToken_backAtLoop (withTmpOct_returnsToLoop _) hs hp h
  | noteA | noteB | noteC | noteD | noteE | noteF | noteG =>
    exact runToken_backAtLoop (noteToken_returnsToLoop _) hs hp h
  | rest => exact runToken_backAtLoop (tailFromSharps_returnsToLoop _) hs hp h
  | setOctave | setTempo | setLength | setVolume =>
    exact runToken_backAtLoop (settingToken_returnsToLoop _) hs hp h
  | legato =>
    exact runToken_backAtLoop
      (style_returnsToLoop Engine.setLegato_seqLen Engine.setLegato_seqOff) hs hp h
  | staccato =>
    exact runToken_backAtLoop
      (style_returnsToLoop Engine.setStaccato_seqLen Engine.setStaccato_seqOff) hs hp h
  | resetMusic => exact runToken_backAtLoop resetMusic_returnsToLoop hs hp h
  | terminator => exact runToken_backAtLoop endOfScore_returnsToLoop hs hp h
  | sharpPlus | sharpHash => exact .inl (runByte_ends (effect := sharpEffect) rfl hs hp h)
  | flat => exact .inl (runByte_ends (effect := flatEffect) rfl hs hp h)
  | digitLow | digitHigh => exact .inl (runByte_ends (effect := digitEffect _) rfl hs hp h)
  | dot => exact .inl (runByte_ends (effect := dotEffect) rfl hs hp h)
  | space =>
    cases next_of_live hs h
    have hplace : s.advance.currentPull.place = .tokens := by rwa [State.currentPull_place] at hp ⊢
    exact .inr ⟨hplace, le_rfl⟩

/-- Past the score stands a terminator, which ends the pull (R52, R119). -/
theorem exec_nextToken_ends_past_score {s t : State} (hs : s.halted = false)
    (hp : s.currentPull.place = .tokens) (h0 : s.remaining = 0) (h : exec s.nextToken s = .next t) :
    t.pull = none := by
  have htoken : s.nextToken = .terminator 0x00 := by
    rw [State.nextToken, scoreByte_of_remaining_eq_zero h0]; rfl
  rw [htoken] at h
  cases (runToken_at_tokens hs hp).symm.trans h
  rfl

/-- Each turn of the token loop ends the pull or leaves fewer bytes of the score to read (R100). -/
theorem exec_nextToken_shortens {s t : State} (hs : s.halted = false)
    (hp : s.currentPull.place = .tokens) (h : exec s.nextToken s = .next t) :
    t.pull = none ∨
      (t.halted = false ∧ t.currentPull.place = .tokens ∧ t.remaining < s.remaining) := by
  have hi := nextToken_isCommand s
  rcases Nat.eq_zero_or_pos s.remaining with h0 | hpos
  · exact .inl (exec_nextToken_ends_past_score hs hp h0 h)
  · have hadvance := remaining_advance s hpos
    rcases exec_score_raisedOrFramed hi hs h with ⟨code, rfl⟩ | hframe
    · exact .inl rfl
    · exact (exec_score_backAtLoop hi hs hp h).imp_right fun ⟨hplace, hrem⟩ =>
        ⟨hframe.halted_eq.trans hs, hplace, by omega⟩

theorem pullLoop_answers (k : Nat) {s : State} (hs : s.halted = false)
    (hp : s.currentPull.place = .tokens) (hk : s.remaining < k) : ∃ t, pullLoop k s = .next t := by
  induction k generalizing s with
  | zero => exact absurd hk (Nat.not_lt_zero _)
  | succ k ih =>
    cases hc : s.pull with
    | none => exact ⟨s, pullLoop_of_closed hc _⟩
    | some c =>
      obtain ⟨u, hu⟩ := exec_nextToken_answers s
      rw [pullLoop_of_open hc hu]
      rcases exec_nextToken_shortens hs hp hu with hclosed | ⟨hlive, hplace, hrem⟩
      · exact ⟨u, pullLoop_of_closed hclosed k⟩
      · exact ih hlive hplace (by omega)

/-! ## Where a step stops (R63, R160) -/

theorem runPull_answers (origin : Engine) {s : State} (hs : s.halted = false) :
    ∃ t, runPull origin s = .next t := by
  unfold runPull
  split
  · exact settle_answers _ _
  · exact pullLoop_answers _ (s := s.openPull origin) hs rfl (Nat.lt_succ_self _)

theorem pullIfDue_answers (origin : Engine) {s : State} (hs : s.halted = false) :
    ∃ t, pullIfDue origin s = .next t := by
  unfold pullIfDue
  split
  · exact runPull_answers origin hs
  · exact ⟨s, rfl⟩

theorem execPlayMode_answers (mode : Mode) (s : State) : ∃ t, execPlayMode mode s = .next t := by
  refine unlessHalted_answers fun hs => ?_
  cases mode with
  | automatic => exact pullIfDue_answers s.eng (halted_mapEng hs rfl)
  | checkDriven => exact ⟨_, rfl⟩

theorem execPlayCheck_answers (s : State) : ∃ t, execPlayCheck s = .next t := by
  refine unlessHalted_answers fun hs => ?_
  obtain ⟨u, hu⟩ := pullIfDue_answers s.eng hs
  rw [hu]
  exact ⟨u.answerActive, rfl⟩

/-- Every instruction answers a next state, in every state. -/
theorem exec_answers (i : Instr) (s : State) : ∃ t, exec i s = .next t := by
  cases i with
  | playFreq | playNote => exact unlessHalted_answers fun _ => settle_answers _ _
  | playSeq base len =>
    exact unlessHalted_answers fun hs => runPull_answers s.eng (halted_mapEng hs rfl)
  | playMode mode => exact execPlayMode_answers mode s
  | playCheck => exact execPlayCheck_answers s
  | isPlaying | stop | illegalCmd => exact unlessHalted_answers fun _ => ⟨_, rfl⟩
  | _ => exact exec_score_answers rfl s

theorem tick_answers (s : State) : ∃ t, tick s = .next t := by
  unfold tick
  split
  · rename_i hen
    split
    · unfold expiry
      split
      · exact runPull_answers s.eng (halted_mapEng (live_of_tickEnabled hen) rfl)
      · exact ⟨_, rfl⟩
    · exact ⟨_, rfl⟩
  · exact ⟨s, rfl⟩

/-- The host's write to the sequence memory during playback is refused (R63, U9). -/
theorem step_of_hostWritesDuringPlayback {s : State} (h : s.hostWritesDuringPlayback) :
    step s = .refused .scoreWriteDuringPlayback := by
  obtain ⟨hn, hactive, addr, byte, later, hin⟩ := h
  rw [step_of_no_pull hn, agentStep_of_cons hin]
  exact if_pos hactive

theorem agentStep_answers {s : State}
    (h : ∀ addr byte later, s.inputs = .load addr byte :: later → s.eng.seqActive = false) :
    ∃ t, agentStep s = .next t := by
  cases hin : s.inputs with
  | nil => rw [agentStep_of_nil hin]; exact tick_answers s
  | cons input later =>
    rw [agentStep_of_cons hin]
    cases input with
    | command w => exact exec_answers _ _
    | tick => exact tick_answers _
    | load addr byte => exact ⟨_, placeByte_of_inactive addr byte (h addr byte later hin)⟩
    | reset => exact ⟨_, rfl⟩

/-- Settles O49: the host's one refused move, and for every other step the answer of a score byte or of an
agent, whose pulls end within the score. -/
theorem stepStopsOnlyOnScoreWrite : Obligations.StepStopsOnlyOnScoreWrite := by
  refine fun s => ⟨step_of_hostWritesDuringPlayback, fun hother => ?_⟩
  cases hp : s.pull with
  | some c => rw [step_of_pull hp]; exact exec_nextToken_answers s
  | none =>
    rw [step_of_no_pull hp]
    refine agentStep_answers fun addr byte later hin => Bool.eq_false_of_not_eq_true fun hactive => ?_
    exact hother ⟨hp, hactive, addr, byte, later, hin⟩

end Sys2Proof.Machine
end

section
/-! Proofs about the encodings of the command words and of the score bytes (30_encoding.md): each format
decoded and encoded again, and the words that no row of the table takes. -/

namespace Sys2Proof

/-! ## The fields of a command word (R66) -/

@[simp] theorem opField_commandWord (op : Byte) (a b : Half) (c : Byte) :
    opField (commandWord op a b c) = op := by
  unfold opField commandWord
  rw [BitVec.extractLsb'_append_eq_of_le (by decide), BitVec.extractLsb'_append_eq_of_le (by decide),
    BitVec.extractLsb'_append_eq_left]

@[simp] theorem aField_commandWord (op : Byte) (a b : Half) (c : Byte) :
    aField (commandWord op a b c) = a := by
  unfold aField commandWord
  rw [BitVec.extractLsb'_append_eq_of_le (by decide), BitVec.extractLsb'_append_eq_of_le (by decide),
    BitVec.extractLsb'_append_eq_of_add_le (by decide), BitVec.extractLsb'_eq_self]

@[simp] theorem bField_commandWord (op : Byte) (a b : Half) (c : Byte) :
    bField (commandWord op a b c) = b := by
  unfold bField commandWord
  rw [BitVec.extractLsb'_append_eq_of_le (by decide), BitVec.extractLsb'_append_eq_of_add_le (by decide),
    BitVec.extractLsb'_eq_self]

@[simp] theorem cField_commandWord (op : Byte) (a b : Half) (c : Byte) :
    cField (commandWord op a b c) = c := by
  unfold cField commandWord
  rw [BitVec.extractLsb'_append_eq_of_add_le (by decide), BitVec.extractLsb'_eq_self]

/-- The four fields are the whole word (R66). -/
theorem commandWord_fields (w : CommandWord) :
    commandWord (opField w) (aField w) (bField w) (cField w) = w := by
  unfold commandWord opField aField bField cField
  rw [BitVec.extractLsb'_append_extractLsb'_eq_extractLsb' (by decide),
    BitVec.extractLsb'_append_extractLsb'_eq_extractLsb' (by decide),
    BitVec.extractLsb'_append_extractLsb'_eq_extractLsb' (by decide)]
  exact BitVec.extractLsb'_eq_self

/-! ### Reserved bits (R68) -/

/-- The reserved bits of `PLAY_NOTE`. -/
theorem aField_high_eq (w : CommandWord) : (aField w).extractLsb' 8 8 = w.extractLsb' 32 8 := by
  rw [← BitVec.toNat_inj]
  simp only [aField, BitVec.extractLsb'_toNat, Nat.shiftRight_eq_div_pow]
  omega

/-- The reserved bits of `PLAY_MODE`. -/
theorem reserved_of_playMode (w : CommandWord) :
    (aField w = 0 ∧ bField w = 0 ∧ (cField w).extractLsb' 1 7 = 0) ↔ w.extractLsb' 1 39 = 0 := by
  simp only [← BitVec.toNat_inj, aField, bField, cField, BitVec.extractLsb'_toNat,
    Nat.shiftRight_eq_div_pow, BitVec.ofNat_eq_ofNat, BitVec.toNat_ofNat]
  omega

/-- The reserved bits of the commands without operands. -/
theorem fields_eq_zero_iff (w : CommandWord) :
    (aField w = 0 ∧ bField w = 0 ∧ cField w = 0) ↔ w.extractLsb' 0 40 = 0 := by
  simp only [← BitVec.toNat_inj, aField, bField, cField, BitVec.extractLsb'_toNat,
    Nat.shiftRight_eq_div_pow, BitVec.ofNat_eq_ofNat, BitVec.toNat_ofNat]
  omega

/-- A half word whose high byte is 0 is its low byte, as `PLAY_NOTE` writes it (R128). -/
theorem setWidth_low_of_high_zero {a : Half} (h : a.extractLsb' 8 8 = 0) :
    (a.extractLsb' 0 8).setWidth 16 = a := by
  simp only [← BitVec.toNat_inj, BitVec.toNat_setWidth, BitVec.extractLsb'_toNat,
    Nat.shiftRight_eq_div_pow, BitVec.ofNat_eq_ofNat, BitVec.toNat_ofNat] at h ⊢
  omega

/-- The mode field gives its mode, and a mode its field (R12). -/
theorem toBit_modeOfBit : ∀ c : Byte, c.extractLsb' 1 7 = 0 →
    (modeOfBit (c.getLsbD 0)).toBit.setWidth 8 = c := by
  decide

/-! ### Command words decoded and encoded (R67, R68) -/

/-- The words that spell no command, by opcode and reserved bits (R68). -/
theorem legalCommand_eq_false_iff {w : CommandWord} {op : Nat} (hop : (w.extractLsb' 40 8).toNat = op) :
    legalCommand w = false ↔ op = 0 ∨ 8 ≤ op ∨
      (op = 2 ∧ w.extractLsb' 32 8 ≠ 0) ∨ (op = 3 ∧ w.extractLsb' 0 8 ≠ 0) ∨
      (op = 4 ∧ w.extractLsb' 1 39 ≠ 0) ∨ (5 ≤ op ∧ op ≤ 7 ∧ w.extractLsb' 0 40 ≠ 0) := by
  unfold legalCommand
  rw [hop]
  split
  case h_8 =>
    simp only [imp_false] at *
    have hnone : op = 0 ∨ 8 ≤ op := by omega
    exact iff_of_true trivial (hnone.imp_right .inl)
  all_goals simp

/-- Exactly the words that spell no command decode to `ILLEGAL_CMD`, and to that of themselves (R68). -/
theorem decodeCommand_eq_illegalCmd_iff (w v : CommandWord) :
    decodeCommand w = .illegalCmd v ↔ legalCommand w = false ∧ w = v := by
  have hc : cField w = w.extractLsb' 0 8 := rfl
  rw [legalCommand_eq_false_iff (op := (opField w).toNat) rfl]
  unfold decodeCommand
  simp only [aField_high_eq, reserved_of_playMode, fields_eq_zero_iff]
  split
  -- `PLAY_FREQ` has no reserved bit, and the last case is that of the opcodes of no command.
  case h_1 hop => simp [hop]
  case h_8 =>
    simp only [imp_false] at *
    have hnone : (opField w).toNat = 0 ∨ 8 ≤ (opField w).toNat := by omega
    rw [Instr.illegalCmd.injEq, ← or_assoc, or_iff_left_of_imp fun _ => hnone, and_iff_right hnone]
  all_goals
    rename_i hop
    rw [hop]
    split
    case isTrue hr => simp [hr, ← hc]
    case isFalse hr => simpa [← hc] using fun _ : w = v => hr

theorem commandWord_of_op {w : CommandWord} {k : Byte} (h : (opField w).toNat = k.toNat) :
    commandWord k (aField w) (bField w) (cField w) = w := by
  rw [← BitVec.eq_of_toNat_eq h, commandWord_fields]

theorem commandWord_of_bare_op {w : CommandWord} {k : Byte} (h : (opField w).toNat = k.toNat)
    (h0 : aField w = 0 ∧ bField w = 0 ∧ cField w = 0) : commandWord k 0 0 0 = w := by
  obtain ⟨ha, hb, hc⟩ := h0
  have hw := commandWord_of_op h
  rwa [ha, hb, hc] at hw

/-- Settles O2: the fields of a word are the whole word, and the reserved bits of a command are 0. -/
theorem encodeOfDecodedCommandIsTheWord : Obligations.EncodeOfDecodedCommandIsTheWord := by
  intro w
  unfold decodeCommand
  split
  case h_1 hop => exact congrArg Words.command (commandWord_of_op hop)
  case h_8 => rfl
  all_goals
    rename_i hop
    split
    case isFalse => rfl
    rename_i hr
  case h_2.isTrue =>
    rw [encode, setWidth_low_of_high_zero hr]
    exact congrArg Words.command (commandWord_of_op hop)
  case h_3.isTrue =>
    rw [encode, ← hr]
    exact congrArg Words.command (commandWord_of_op hop)
  case h_4.isTrue =>
    obtain ⟨ha, hb, hc⟩ := hr
    have hw := commandWord_of_op (k := 4) hop
    rw [ha, hb] at hw
    rw [encode, toBit_modeOfBit _ hc]
    exact congrArg Words.command hw
  all_goals exact congrArg Words.command (commandWord_of_bare_op hop hr)

/-- `PLAY_NOTE` reads its note back from the low byte of the field, whose high byte is 0 (R128). -/
theorem note_of_setWidth (note : Byte) : (note.setWidth 16).extractLsb' 8 8 = (0 : Byte) ∧
    (note.setWidth 16).extractLsb' 0 8 = note := by
  simp only [← BitVec.toNat_inj, BitVec.extractLsb'_toNat, BitVec.toNat_setWidth,
    Nat.shiftRight_eq_div_pow, BitVec.ofNat_eq_ofNat, BitVec.toNat_ofNat]
  omega

/-- Every well-formed command is read back from the word it is written in (R66 to R68). -/
theorem decode_encode_command {i : Instr} (hi : Laws.Shape.isCommand i = true) (hwf : i.wf = true) :
    decode (encode i) = i := by
  cases i with
  | playFreq | playSeq => simp [encode, decode, decodeCommand]
  | playNote note =>
    obtain ⟨hreserved, hnote⟩ := note_of_setWidth note
    simp [encode, decode, decodeCommand, hreserved, hnote]
  | playMode mode => cases mode <;> rfl
  | playCheck | isPlaying | stop => rfl
  | illegalCmd w => exact (decodeCommand_eq_illegalCmd_iff w w).2 ⟨by simpa [Instr.wf] using hwf, rfl⟩
  | _ => cases hi

/-- A command word decodes to an instruction that has an encoding (R68). -/
theorem decodeCommand_wf (w : CommandWord) : (decodeCommand w).wf = true := by
  cases hi : decodeCommand w with
  | illegalCmd v =>
    obtain ⟨hw, rfl⟩ := (decodeCommand_eq_illegalCmd_iff w v).1 hi
    simp [Instr.wf, hw]
  | staccato | terminator =>
    have hcommand := Machine.decodeCommand_isCommand w
    rw [hi] at hcommand
    cases hcommand
  | _ => rfl

/-! ## Score bytes (R71) -/

/-- The folded bytes of the score rows other than `TERMINATOR` (R71). -/
def rowCodes : List Nat :=
  [0x20, 0x21, 0x23, 0x2B, 0x2D, 0x2E, 0x30, 0x31, 0x32, 0x33, 0x34, 0x35, 0x36, 0x37, 0x38, 0x39, 0x3C,
   0x3E, 0x61, 0x62, 0x63, 0x64, 0x65, 0x66, 0x67, 0x6C, 0x6D, 0x6F, 0x72, 0x74, 0x76]

/-- A row takes its byte in either case (R53, R71). -/
theorem foldCase_mem_rowCodes_iff :
    ∀ c : Byte, (foldCase c).toNat ∈ rowCodes ↔ scoreLetters.contains c = true := by
  decide

/-- The second letter of `ML` in either case (R117). -/
theorem foldCase_eq_l_iff : ∀ c : Byte, foldCase c = 0x6C ↔ c = 0x4C ∨ c = 0x6C := by
  decide

/-- A byte no other row takes is a terminator (R71). -/
theorem decodeToken_of_no_row {c : Byte} (hc : scoreLetters.contains c = false) (second : Byte) :
    decodeToken c second = .terminator c := by
  have hcode : (foldCase c).toNat ∉ rowCodes := by rw [foldCase_mem_rowCodes_iff, hc]; decide
  unfold decodeToken
  split
  case h_32 => rfl
  all_goals
    rename_i h
    exact absurd (by rw [h]; decide) hcode

/-- `M` before a byte other than the `L` of `ML` is `MS` (R117). -/
theorem decodeToken_m {second : Byte} (h : foldCase second ≠ 0x6C) :
    decodeToken 0x4D second = .staccato second := if_neg h

theorem wf_staccato_iff (second : Byte) :
    (Instr.staccato second).wf = true ↔ foldCase second ≠ 0x6C ∧ second ≠ 0x20 := by
  rw [Ne, foldCase_eq_l_iff]
  simp [Instr.wf]

theorem wf_terminator_iff (b : Byte) :
    (Instr.terminator b).wf = true ↔ scoreLetters.contains b = false := by
  rw [Instr.wf, Bool.not_eq_true']

theorem firstNonSpace_of_solid {c : Byte} (h : c ≠ 0x20) (cs : List Byte) : firstNonSpace (c :: cs) = c :=
  if_neg h

theorem firstNonSpace_of_space (cs : List Byte) : firstNonSpace (0x20 :: cs) = firstNonSpace cs :=
  if_pos rfl

theorem firstNonSpace_ne_space (bytes : List Byte) : firstNonSpace bytes ≠ 0x20 := by
  induction bytes with
  | nil => decide
  | cons c cs ih =>
    by_cases h : c = 0x20
    · rwa [h, firstNonSpace_of_space]
    · rwa [firstNonSpace_of_solid h]

/-- A score byte decodes to an instruction that has an encoding: the byte after `M` is no space and not
the `L` of `ML`, and a terminator is a byte of no other row (R71, R117). -/
theorem decodeToken_wf (c : Byte) {second : Byte} (hsecond : second ≠ 0x20) :
    (decodeToken c second).wf = true := by
  cases hc : scoreLetters.contains c with
  | false => rw [decodeToken_of_no_row hc]; exact (wf_terminator_iff c).2 hc
  | true =>
    have hcode := (foldCase_mem_rowCodes_iff c).2 hc
    unfold decodeToken
    split
    case h_27 =>
      split
      · rfl
      · exact (wf_staccato_iff second).2 ⟨by assumption, hsecond⟩
    case h_32 => simp_all [rowCodes]
    all_goals rfl

/-- Every well-formed score row is read back from its bytes (R71). -/
theorem decode_encode_score {i : Instr} (hi : Laws.Shape.isCommand i = false) (hwf : i.wf = true) :
    decode (encode i) = i := by
  cases i with
  | playFreq | playNote | playSeq | playMode | playCheck | isPlaying | stop | illegalCmd => cases hi
  | staccato second =>
    obtain ⟨hl, hspace⟩ := (wf_staccato_iff second).1 hwf
    rw [encode, decode, decodeScore, firstNonSpace_of_solid hspace, decodeToken_m hl]
  | digitLow value => revert value; decide
  | digitHigh value => revert value; decide
  | terminator b => exact decodeToken_of_no_row ((wf_terminator_iff b).1 hwf) _
  | _ => rfl

/-! ## Both formats (R65) -/

/-- Settles O1: the rows of the two formats are read back from their own words. -/
theorem decodeOfEncodeIsIdentity : Obligations.DecodeOfEncodeIsIdentity := by
  intro i hwf
  cases hi : Laws.Shape.isCommand i with
  | true => exact decode_encode_command hi hwf
  | false => exact decode_encode_score hi hwf

/-- Settles O3: the rows that not every operand fits are `ILLEGAL_CMD`, `MS` and `TERMINATOR`. -/
theorem decodedInstructionIsWellFormed : Obligations.DecodedInstructionIsWellFormed := by
  intro ws
  match ws with
  | .command w => exact decodeCommand_wf w
  | .score [] => rfl
  | .score (c :: cs) => exact decodeToken_wf c (firstNonSpace_ne_space cs)

/-- Settles O5: each word is decoded. -/
theorem specWordsDecode : Obligations.SpecWordsDecode := by
  unfold Obligations.SpecWordsDecode
  decide

end Sys2Proof

namespace Sys2Proof.Machine

/-! ## Illegal words (R68, R137) -/

/-- A command word that spells no command raises its fault and writes nothing else (R137). -/
theorem exec_illegalCmd {s : State} (hs : s.halted = false) (hn : s.pull = none) (w : CommandWord) :
    exec (.illegalCmd w) s = .next (s.afterFault .illegalCmd) := by
  show execIllegalCmd w s = _
  rw [execIllegalCmd, unlessHalted_of_live hs, settle_error, State.raise, State.origin_of_none s hn]
  rfl

/-- Settles O4: the words that spell no command are those that decode to `ILLEGAL_CMD`. -/
theorem unspelledWordRaisesIllegalCmd : Obligations.UnspelledWordRaisesIllegalCmd := by
  intro w s hs hn op spellsNothing
  have hspells : spellsNothing ↔ legalCommand w = false := (legalCommand_eq_false_iff rfl).symm
  rw [hspells]
  refine ⟨fun hw => ⟨?_, exec_illegalCmd hs hn w⟩, fun hw v hv => ?_⟩
  · exact (decodeCommand_eq_illegalCmd_iff w w).2 ⟨hw, rfl⟩
  · exact hw ((decodeCommand_eq_illegalCmd_iff w v).1 hv).1

end Sys2Proof.Machine
end

section
/-! Proofs about the score text (30_encoding.md): the token at the cursor is what the text ahead decodes to,
and a placed word is what the next step runs. -/

namespace Sys2Proof.Machine

open Sys2Proof

/-! ## The text ahead of the cursor (R52) -/

theorem scoreAhead_of_remaining_eq_zero {s : State} (h : s.remaining = 0) : s.scoreAhead = [] := by
  rw [State.scoreAhead, h]; rfl

theorem scoreAhead_of_remaining_pos {s : State} (h : 0 < s.remaining) :
    s.scoreAhead = s.scoreByte :: (s.movedBy 1).scoreAhead := by
  have hrem := remaining_advance s h
  rw [advance_eq_movedBy (Nat.lt_of_sub_pos h)] at hrem
  rw [State.scoreAhead, ← hrem, List.range_succ_eq_map, List.map_cons, List.map_map]
  refine congrArg₂ List.cons ?_ (List.map_congr_left fun k _ => ?_)
  · rw [BitVec.add_zero]; rfl
  · show s.byteAt _ = s.byteAt (s.eng.seqOff + BitVec.ofNat 16 1 + BitVec.ofNat 16 k)
    rw [offset_add, Nat.add_comm 1 k]

theorem length_scoreAhead (s : State) : s.scoreAhead.length = s.remaining := by
  simp [State.scoreAhead]

theorem skipSpaces_of_solid {s : State} (h : s.scoreByte ≠ 0x20) : s.skipSpaces = s := by
  unfold State.skipSpaces
  cases s.remaining with
  | zero => rfl
  | succ k => exact if_neg h

theorem skipSpaces_of_space {s : State} (h : s.scoreByte = 0x20) :
    s.skipSpaces = (s.movedBy 1).skipSpaces := by
  have hpos := remaining_pos_of_space h
  rw [← advance_eq_movedBy (Nat.lt_of_sub_pos hpos)]
  unfold State.skipSpaces
  rw [← remaining_advance s hpos]
  exact if_pos h

theorem scoreByte_skipSpaces_ne_space (s : State) : s.skipSpaces.scoreByte ≠ 0x20 := by
  obtain ⟨_, _, _, _, hstop⟩ := skipSpacesLoop_skips s.remaining (le_refl s.remaining)
  exact hstop

theorem skipSpaces_skipSpaces (s : State) : s.skipSpaces.skipSpaces = s.skipSpaces :=
  skipSpaces_of_solid (scoreByte_skipSpaces_ne_space s)

/-- `Fetch` gives the first byte ahead that is no space (R53). -/
theorem scoreByte_skipSpaces (s : State) : s.skipSpaces.scoreByte = firstNonSpace s.scoreAhead := by
  induction hr : s.remaining generalizing s with
  | zero =>
    have hbyte := scoreByte_of_remaining_eq_zero hr
    rw [skipSpaces_of_solid (by rw [hbyte]; decide), hbyte, scoreAhead_of_remaining_eq_zero hr]
    rfl
  | succ k ih =>
    have hpos : 0 < s.remaining := by omega
    rw [scoreAhead_of_remaining_pos hpos]
    by_cases hspace : s.scoreByte = 0x20
    · have hrem := remaining_advance s hpos
      rw [advance_eq_movedBy (Nat.lt_of_sub_pos hpos)] at hrem
      rw [skipSpaces_of_space hspace, hspace, firstNonSpace_of_space]
      exact ih _ (by omega)
    · rw [skipSpaces_of_solid hspace, firstNonSpace_of_solid hspace]

/-- The token at the cursor is what the text ahead decodes to (R71, R119). -/
theorem decodeScore_scoreAhead (s : State) : decodeScore s.scoreAhead = s.nextToken := by
  rcases Nat.eq_zero_or_pos s.remaining with h0 | hpos
  · rw [scoreAhead_of_remaining_eq_zero h0, State.nextToken, scoreByte_of_remaining_eq_zero h0]
    rfl
  · rw [scoreAhead_of_remaining_pos hpos, State.nextToken, scoreByte_skipSpaces,
      advance_eq_movedBy (Nat.lt_of_sub_pos hpos)]
    rfl

/-- Settles O7: a pull in progress runs the token at the cursor, which is what the text ahead decodes to. -/
theorem stepRunsTheTokenAtTheCursor : Obligations.StepRunsTheTokenAtTheCursor := by
  intro s c hc
  rw [decode, decodeScore_scoreAhead]
  exact step_of_pull hc

/-! ## The placing of one instruction (log entry 5) -/

/-- A byte that no placed one overwrites stays (R58). -/
theorem Memory.read_writeFrom_of_ne {m : Memory} {addr : Half} {bytes : List Byte} {a : Nat}
    (hwf : m.wf = true) (ha : ∀ j < bytes.length, (addr + BitVec.ofNat 16 j).toNat ≠ a) :
    (m.writeFrom addr bytes).read a = m.read a := by
  induction bytes generalizing m addr with
  | nil => rfl
  | cons b later ih =>
    have hlater : ∀ j < later.length, (addr + 1 + BitVec.ofNat 16 j).toNat ≠ a := fun j hj => by
      have hj' := ha (1 + j) (by rw [List.length_cons]; omega)
      rwa [← offset_add] at hj'
    have haddr := ha 0 (Nat.succ_pos _)
    rw [BitVec.add_zero] at haddr
    rw [Memory.writeFrom, ih (Memory.wf_write b hwf addr.isLt) hlater,
      Memory.read_write _ _ _ hwf, if_neg haddr.symm]

/-- Placed bytes that do not go around the address space are read back (R58). -/
theorem Memory.read_writeFrom {m : Memory} {addr : Half} {bytes : List Byte} (hwf : m.wf = true)
    (hlen : bytes.length ≤ 65536) {k : Nat} (hk : k < bytes.length) :
    (m.writeFrom addr bytes).read (addr + BitVec.ofNat 16 k).toNat = bytes[k] := by
  induction bytes generalizing m addr k with
  | nil => exact absurd hk (Nat.not_lt_zero k)
  | cons b later ih =>
    rw [List.length_cons] at hlen hk
    have hwf' := Memory.wf_write b hwf addr.isLt
    cases k with
    | zero =>
      have hne : ∀ j < later.length, (addr + 1 + BitVec.ofNat 16 j).toNat ≠ addr.toNat := fun j hj => by
        have hone : (1 : Half).toNat = 1 := rfl
        simp only [BitVec.toNat_add, BitVec.toNat_ofNat, hone]
        omega
      rw [BitVec.add_zero, Memory.writeFrom, Memory.read_writeFrom_of_ne hwf' hne,
        Memory.read_write _ _ _ hwf, if_pos rfl]
      rfl
    | succ k =>
      have hread := ih (addr := addr + 1) hwf' (by omega) (Nat.lt_of_succ_lt_succ hk)
      have hoff : addr + BitVec.ofNat 16 (k + 1) = addr + 1 + BitVec.ofNat 16 k := by
        rw [Nat.add_comm k 1]
        exact (offset_add addr 1 k).symm
      rw [hoff]
      exact hread

/-- The text ahead of a placed score is the score (R52, R58). -/
theorem scoreAhead_withScoreBytes {s : State} {bytes : List Byte} (hwf : s.mem.wf = true)
    (hlen : bytes.length < 65536) : (s.withScoreBytes bytes).scoreAhead = bytes := by
  have hseqLen : (BitVec.ofNat 16 bytes.length).toNat = bytes.length := Nat.mod_eq_of_lt hlen
  have hrem : (s.withScoreBytes bytes).remaining = bytes.length := hseqLen
  refine List.ext_getElem ((length_scoreAhead _).trans hrem) fun k _ hk => ?_
  have hoff : (BitVec.ofNat 16 k).toNat = k := Nat.mod_eq_of_lt (by omega)
  have hzero : (s.withScoreBytes bytes).eng.seqOff + BitVec.ofNat 16 k = BitVec.ofNat 16 k :=
    BitVec.zero_add _
  simp only [State.scoreAhead, List.getElem_map, List.getElem_range, hzero]
  rw [State.byteAt_within _ _ (by rw [hoff]; exact hk.trans_eq hseqLen.symm)]
  exact Memory.read_writeFrom hwf hlen.le hk

theorem step_withScoreBytes {s : State} {bytes : List Byte} (hwf : s.mem.wf = true)
    (hlen : bytes.length < 65536) :
    step (s.withScoreBytes bytes) = exec (decodeScore bytes) (s.withScoreBytes bytes) := by
  have hstep : step (s.withScoreBytes bytes) = exec _ _ := step_of_pull rfl
  rw [hstep, ← decodeScore_scoreAhead, scoreAhead_withScoreBytes hwf hlen]

theorem step_withCommandWord (s : State) (w : CommandWord) :
    step (s.withCommandWord w) = exec (decodeCommand w) { s with pull := none } := by
  rw [step_of_no_pull (State.withCommandWord_pull s w)]
  exact agentStep_of_cons (State.withCommandWord_inputs s w)

theorem length_scoreBytesOf (nbits w : Nat) : (scoreBytesOf nbits w).length < 65536 := by
  unfold scoreBytesOf
  split <;> simp

/-- Settles O8: a placed command word is the next input, and placed score bytes are the text ahead. -/
theorem placedWordRunsNext : Obligations.PlacedWordRunsNext := by
  intro s nbits w i hwf hi
  unfold decodeTableWord tableWords at hi
  unfold State.withFetchWord State.withTableWord tableWords
  by_cases h48 : nbits = 48
  · simp only [if_pos h48, Option.map_some, Option.some.injEq] at hi ⊢
    subst hi
    exact step_withCommandWord s _
  · simp only [if_neg h48] at hi ⊢
    split at hi <;> cases hi
    rename_i hscore
    simp only [if_pos hscore]
    exact step_withScoreBytes hwf (length_scoreBytesOf nbits w)

end Sys2Proof.Machine
end

section
/-! Proofs about the text of a note (30_encoding.md R72): the loops over the score's characters as one loop,
what that loop reads from a text at the cursor, and the note a letter's text plays. -/

namespace Sys2Proof.Machine

open Sys2Proof

/-! ## Bytes that are not spaces (R53, R73) -/

theorem solidCount_space (cs : List Byte) : solidCount (0x20 :: cs) = solidCount cs := by
  simp [solidCount]

theorem solidCount_solid {c : Byte} (h : c ≠ 0x20) (cs : List Byte) :
    solidCount (c :: cs) = solidCount cs + 1 := by
  rw [solidCount, List.filter_cons_of_pos (by simpa using h), List.length_cons, solidCount]

theorem firstNonSpace_mem {text : List Byte} (h : solidCount text ≠ 0) : firstNonSpace text ∈ text := by
  induction text with
  | nil => exact absurd rfl h
  | cons c cs ih =>
    by_cases hc : c = 0x20
    · rw [hc, solidCount_space] at h
      rw [hc, firstNonSpace_of_space]
      exact List.mem_cons_of_mem _ (ih h)
    · rw [firstNonSpace_of_solid hc]
      exact List.mem_cons_self

theorem firstNonSpace_append (text rest : List Byte) : firstNonSpace (text ++ rest) =
    if solidCount text = 0 then firstNonSpace rest else firstNonSpace text := by
  induction text with
  | nil => rfl
  | cons c cs ih =>
    rw [List.cons_append]
    by_cases hc : c = 0x20
    · rw [hc, firstNonSpace_of_space, firstNonSpace_of_space, solidCount_space, ih]
    · rw [firstNonSpace_of_solid hc, firstNonSpace_of_solid hc, solidCount_solid hc,
        if_neg (Nat.succ_ne_zero _)]

/-! ## The text at the cursor -/

/-- The first character of a text at the cursor. -/
theorem shows_cons {s : State} {c : Byte} {cs : List Byte} (h : s.shows (c :: cs)) :
    0 < s.remaining ∧ s.scoreByte = c ∧ (s.movedBy 1).shows cs := by
  have hpos : 0 < s.remaining := by
    rw [← length_scoreAhead]
    exact (Nat.succ_pos _).trans_le h.length_le
  rw [State.shows, scoreAhead_of_remaining_pos hpos, List.cons_prefix_cons] at h
  exact ⟨hpos, h.1.symm, h.2⟩

theorem movedBy_cons (s : State) (c : Byte) (cs : List Byte) :
    s.movedBy (c :: cs).length = (s.movedBy 1).movedBy cs.length := by
  rw [movedBy_movedBy, List.length_cons, Nat.add_comm]

theorem scoreAhead_of_shows {s : State} {text : List Byte} (h : s.shows text) :
    s.scoreAhead = text ++ (s.movedBy text.length).scoreAhead := by
  induction text generalizing s with
  | nil => rw [List.length_nil, movedBy_zero, List.nil_append]
  | cons c cs ih =>
    obtain ⟨hpos, rfl, hcs⟩ := shows_cons h
    rw [scoreAhead_of_remaining_pos hpos, ih hcs, ← movedBy_cons, List.cons_append]

theorem shows_append {s : State} {a b : List Byte} (h : s.shows (a ++ b)) :
    s.shows a ∧ (s.movedBy a.length).shows b := by
  have ha : s.shows a := (List.prefix_append a b).trans h
  rw [State.shows, scoreAhead_of_shows ha] at h
  exact ⟨ha, (List.prefix_append_right_inj a).1 h⟩

theorem movedBy_append (s : State) (a b : List Byte) :
    s.movedBy (a ++ b).length = (s.movedBy a.length).movedBy b.length := by
  rw [movedBy_movedBy, List.length_append]

theorem char_skipSpaces (s : State) : s.skipSpaces.char = foldCase (firstNonSpace s.scoreAhead) :=
  congrArg foldCase (scoreByte_skipSpaces s)

/-- The character fetched before a text that is not blank is the first of the text. -/
theorem char_skipSpaces_of_solid {s : State} {text : List Byte} (h : s.shows text)
    (hsolid : solidCount text ≠ 0) : s.skipSpaces.char = foldCase (firstNonSpace text) := by
  rw [char_skipSpaces, scoreAhead_of_shows h, firstNonSpace_append, if_neg hsolid]

/-- A blank text is skipped by the fetch before it. -/
theorem skipSpaces_of_blank {s : State} {text : List Byte} (h : s.shows text)
    (hblank : solidCount text = 0) : s.skipSpaces = (s.movedBy text.length).skipSpaces := by
  induction text generalizing s with
  | nil => rw [List.length_nil, movedBy_zero]
  | cons c cs ih =>
    obtain ⟨_, hbyte, hcs⟩ := shows_cons h
    by_cases hc : c = 0x20
    · rw [hc, solidCount_space] at hblank
      rw [skipSpaces_of_space (hbyte.trans hc), ih hcs hblank, ← movedBy_cons]
    · rw [solidCount_solid hc] at hblank
      exact absurd hblank (Nat.succ_ne_zero _)

/-- The character fetched before a text is one of the text or the one fetched after it. -/
theorem char_skipSpaces_before {P : Byte → Prop} {s : State} {text : List Byte} (h : s.shows text)
    (htext : ∀ c ∈ text, c ≠ 0x20 → P (foldCase c)) :
    P s.skipSpaces.char ∨ s.skipSpaces.char = (s.movedBy text.length).skipSpaces.char := by
  by_cases hsolid : solidCount text = 0
  · exact .inr (congrArg State.char (skipSpaces_of_blank h hsolid))
  · rw [char_skipSpaces_of_solid h hsolid]
    exact .inl (htext _ (firstNonSpace_mem hsolid) (firstNonSpace_ne_space text))

/-! ## The loops over the score as one loop (R120, R121, R123) -/

/-- What a loop does with the next character: end before it, fault, or go on after it. -/
abbrev CharStep (α : Type) := α → Byte → Option (Except FaultCode α)

/-- Characters read one after another while `f` takes them, spaces skipped, with a bound on their number. -/
def readLoop {α : Type} (f : CharStep α) : Nat → α → State → Except FaultCode (α × State)
  | 0, a, s => .ok (a, s.skipSpaces)
  | k + 1, a, s =>
    match f a s.skipSpaces.char with
    | none => .ok (a, s.skipSpaces)
    | some (.error code) => .error code
    | some (.ok b) => readLoop f k b s.skipSpaces.advance

section
variable {α : Type} {f : CharStep α} {s : State} {a b : α}

theorem readLoop_stop (h : f a s.skipSpaces.char = none) (k : Nat) :
    readLoop f k a s = .ok (a, s.skipSpaces) := by
  cases k with
  | zero => rfl
  | succ k => rw [readLoop, h]

theorem readLoop_take (h : f a s.skipSpaces.char = some (.ok b)) (k : Nat) :
    readLoop f (k + 1) a s = readLoop f k b s.skipSpaces.advance := by
  rw [readLoop, h]

theorem readLoop_fault {code : FaultCode} (h : f a s.skipSpaces.char = some (.error code)) (k : Nat) :
    readLoop f (k + 1) a s = .error code := by
  rw [readLoop, h]

/-- Where two cursors fetch alike, the loop reads alike. -/
theorem readLoop_congr {t : State} (h : s.skipSpaces = t.skipSpaces) (k : Nat) (a : α) :
    readLoop f k a s = readLoop f k a t := by
  cases k with
  | zero => rw [readLoop, readLoop, h]
  | succ k => rw [readLoop, readLoop, h]

end

/-- A digit of a number (R120). -/
def digitStep : CharStep Nat := fun n c => (digitValue c).map (addDigit n)

/-- An accidental, one of `marks`, by which the pitch moves `k` semitones (R121). -/
def accidentalStep (marks : List Byte) (k : Int) : CharStep Pitch := fun p c =>
  if c ∈ marks then some (.ok (p.shift k)) else none

/-- A dot, with the duration and the next bonus (R123). -/
def dotStep : CharStep (Nat × Nat) := fun db c =>
  if c = 0x2E then some ((addDot db.1 db.2).map (·, db.2 / 2)) else none

theorem accidentalStep_of_mem {marks : List Byte} {c : Byte} (h : c ∈ marks) (k : Int) (p : Pitch) :
    accidentalStep marks k p c = some (.ok (p.shift k)) := if_pos h

theorem accidentalStep_of_not_mem {marks : List Byte} {c : Byte} (h : c ∉ marks) (k : Int) (p : Pitch) :
    accidentalStep marks k p c = none := if_neg h

theorem dotStep_dot (db : Nat × Nat) : dotStep db 0x2E = some ((addDot db.1 db.2).map (·, db.2 / 2)) :=
  if_pos rfl

theorem dotStep_of_ne {c : Byte} (h : c ≠ 0x2E) (db : Nat × Nat) : dotStep db c = none := if_neg h

theorem numberLoop_eq_readLoop (k n : Nat) (s : State) :
    numberLoop k n s = readLoop digitStep k n s := by
  induction k generalizing n s with
  | zero => rfl
  | succ k ih =>
    unfold numberLoop
    split
    · rename_i hv
      rw [readLoop_stop (by rw [digitStep, hv]; rfl)]
    · rename_i v hv
      split
      · rename_i hd
        rw [readLoop_fault (by rw [digitStep, hv, Option.map_some, hd])]
      · rename_i hd
        rw [readLoop_take (by rw [digitStep, hv, Option.map_some, hd]), ih]

theorem sharpsLoop_eq_readLoop (k : Nat) (p : Pitch) (s : State) :
    .ok (sharpsLoop k p s) = readLoop (accidentalStep [0x2B, 0x23] 1) k p s := by
  induction k generalizing p s with
  | zero => rfl
  | succ k ih =>
    unfold sharpsLoop
    split
    · rename_i h
      rw [readLoop_take (accidentalStep_of_mem (by simpa using h) 1 p), ih]
    · rename_i h
      rw [readLoop_stop (accidentalStep_of_not_mem (by simpa using h) 1 p)]

theorem flatsLoop_eq_readLoop (k : Nat) (p : Pitch) (s : State) :
    .ok (flatsLoop k p s) = readLoop (accidentalStep [0x2D] (-1)) k p s := by
  induction k generalizing p s with
  | zero => rfl
  | succ k ih =>
    unfold flatsLoop
    split
    · rename_i h
      rw [readLoop_take (accidentalStep_of_mem (by simpa using h) (-1) p), ih]
    · rename_i h
      rw [readLoop_stop (accidentalStep_of_not_mem (by simpa using h) (-1) p)]

theorem dotsLoop_eq_readLoop (k d bonus : Nat) (s : State) :
    dotsLoop k d bonus s = (readLoop dotStep k (d, bonus) s).map fun r => (r.1.1, r.2) := by
  induction k generalizing d bonus s with
  | zero => rfl
  | succ k ih =>
    unfold dotsLoop
    split
    · rename_i h
      split
      · rename_i hd
        rw [readLoop_fault (by rw [h, dotStep_dot, hd]; rfl)]
        rfl
      · rename_i hd
        rw [readLoop_take (by rw [h, dotStep_dot, hd]; rfl), ih]
    · rename_i h
      rw [readLoop_stop (dotStep_of_ne h _)]
      rfl

/-! ### What the loop reads from a text -/

/-- The loop takes every character of the text but the spaces, and goes from `a` to `b` by them. -/
inductive Takes {α : Type} (f : CharStep α) : α → List Byte → α → Prop
  | nil {a} : Takes f a [] a
  | space {a b cs} (h : Takes f a cs b) : Takes f a (0x20 :: cs) b
  | char {a a' b c cs} (hc : c ≠ 0x20) (hf : f a (foldCase c) = some (.ok a')) (h : Takes f a' cs b) :
      Takes f a (c :: cs) b

theorem remaining_skipSpacesLoop_le (k : Nat) (s : State) :
    (skipSpacesLoop k s).remaining ≤ s.remaining := by
  induction k generalizing s with
  | zero => exact le_rfl
  | succ k ih =>
    unfold skipSpacesLoop
    split
    · rename_i hspace
      have := remaining_advance s (remaining_pos_of_space hspace)
      exact (ih s.advance).trans (by omega)
    · exact le_rfl

theorem remaining_skipSpaces_le (s : State) : s.skipSpaces.remaining ≤ s.remaining :=
  remaining_skipSpacesLoop_le _ s

/-- A text the loop takes is read to its end, where the loop stops at the next character. -/
theorem readLoop_of_takes {α : Type} {f : CharStep α} {a b : α} {text : List Byte}
    (h : Takes f a text b) {s : State} {k : Nat} (hk : s.skipSpaces.remaining ≤ k)
    (hs : s.shows text) (hstop : f b (s.movedBy text.length).skipSpaces.char = none) :
    readLoop f k a s = .ok (b, (s.movedBy text.length).skipSpaces) := by
  induction h generalizing s k with
  | nil =>
    rw [List.length_nil, movedBy_zero] at hstop ⊢
    exact readLoop_stop hstop k
  | space _ ih =>
    obtain ⟨_, hbyte, hcs⟩ := shows_cons hs
    have hskip := skipSpaces_of_space hbyte
    rw [movedBy_cons] at hstop ⊢
    rw [readLoop_congr hskip]
    exact ih (hskip ▸ hk) hcs hstop
  | @char a a' _ _ _ hc hf _ ih =>
    obtain ⟨hpos, hbyte, hcs⟩ := shows_cons hs
    have hskip : s.skipSpaces = s := skipSpaces_of_solid (hbyte ▸ hc)
    have hadvance := advance_eq_movedBy (Nat.lt_of_sub_pos hpos)
    have hrem := remaining_advance s hpos
    have hnext := remaining_skipSpaces_le s.advance
    rw [hskip] at hk
    obtain ⟨k, rfl⟩ : ∃ k', k = k' + 1 := ⟨k - 1, by omega⟩
    rw [movedBy_cons] at hstop ⊢
    have htake : f a s.skipSpaces.char = some (.ok a') := by rw [hskip, State.char, hbyte, hf]
    rw [readLoop_take htake, hskip, hadvance]
    rw [hadvance] at hrem hnext
    exact ih (by omega) hcs hstop

/-! ## The parts of a note's text (R72) -/

theorem shift_shift (p : Pitch) (j k : Int) : (p.shift j).shift k = p.shift (j + k) := by
  cases p with
  | silent => rfl
  | note n => exact congrArg Pitch.note (add_assoc n j k)

theorem shift_zero (p : Pitch) : p.shift 0 = p := by
  cases p with
  | silent => rfl
  | note n => exact congrArg Pitch.note (add_zero n)

/-- Every accidental moves the pitch once (R121). -/
theorem takes_accidentals {marks text : List Byte} (k : Int) (p : Pitch)
    (h : ∀ c ∈ text, c ≠ 0x20 → foldCase c ∈ marks) :
    Takes (accidentalStep marks k) p text (p.shift (k * solidCount text)) := by
  induction text generalizing p with
  | nil =>
    rw [show solidCount [] = 0 from rfl, Int.natCast_zero, mul_zero, shift_zero]
    exact .nil
  | cons c cs ih =>
    have hcs := fun p => ih p fun d hd => h d (List.mem_cons_of_mem c hd)
    by_cases hc : c = 0x20
    · subst hc
      rw [solidCount_space]
      exact .space (hcs p)
    · have hshift : p.shift (k * solidCount (c :: cs)) = (p.shift k).shift (k * solidCount cs) := by
        rw [shift_shift, solidCount_solid hc]
        congr 1; push_cast; ring
      rw [hshift]
      exact .char hc (if_pos (h c List.mem_cons_self hc)) (hcs _)

theorem ne_of_isDigit {c d : Byte} (hc : isDigit c = true) (hd : isDigit d = false) : c ≠ d := by
  rintro rfl
  exact absurd (hc.symm.trans hd) (by decide)

theorem foldCase_of_isDigit {c : Byte} (h : isDigit c = true) : foldCase c = c := by
  simp only [isDigit, Bool.and_eq_true, decide_eq_true_eq] at h
  exact if_neg (by omega)

theorem digitValue_of_isDigit {c : Byte} (h : isDigit c = true) : digitValue c = some (c.toNat - 0x30) := by
  simp only [isDigit, Bool.and_eq_true, decide_eq_true_eq] at h
  exact if_pos h

theorem digitValue_of_not_isDigit {c : Byte} (h : isDigit c = false) : digitValue c = none := by
  simp only [isDigit, Bool.and_eq_false_iff, decide_eq_false_iff_not] at h
  exact if_neg (by omega)

/-- The decimal value of a text whose first digits had the value `n` (R74). -/
def decimalFrom (n : Nat) (text : List Byte) : Nat :=
  (text.filter fun c => c ≠ 0x20).foldl (fun n c => 10 * n + (c.toNat - 0x30)) n

theorem decimalFrom_zero (text : List Byte) : decimalFrom 0 text = decimalValue text := rfl

theorem decimalFrom_space (n : Nat) (cs : List Byte) : decimalFrom n (0x20 :: cs) = decimalFrom n cs := by
  simp [decimalFrom]

theorem decimalFrom_solid (n : Nat) {c : Byte} (h : c ≠ 0x20) (cs : List Byte) :
    decimalFrom n (c :: cs) = decimalFrom (10 * n + (c.toNat - 0x30)) cs := by
  rw [decimalFrom, List.filter_cons_of_pos (by simpa using h), List.foldl_cons, decimalFrom]

/-- A number only grows as its digits are read. -/
theorem le_decimalFrom (n : Nat) (text : List Byte) : n ≤ decimalFrom n text := by
  induction text generalizing n with
  | nil => exact le_rfl
  | cons c cs ih =>
    by_cases hc : c = 0x20
    · rw [hc, decimalFrom_space]
      exact ih n
    · rw [decimalFrom_solid n hc]
      exact (by omega : n ≤ 10 * n + (c.toNat - 0x30)).trans (ih _)

/-- A number that fits 16 bits is read digit by digit (R120). -/
theorem takes_digits {text : List Byte} (n : Nat) (h : ∀ c ∈ text, c ≠ 0x20 → isDigit c = true)
    (hfits : decimalFrom n text ≤ 65535) : Takes digitStep n text (decimalFrom n text) := by
  induction text generalizing n with
  | nil => exact .nil
  | cons c cs ih =>
    have hcs := fun n => ih n fun d hd => h d (List.mem_cons_of_mem c hd)
    by_cases hc : c = 0x20
    · subst hc
      rw [decimalFrom_space] at hfits ⊢
      exact .space (hcs n hfits)
    · have hdigit := h c List.mem_cons_self hc
      rw [decimalFrom_solid n hc] at hfits ⊢
      have hle := (le_decimalFrom _ cs).trans hfits
      refine .char hc ?_ (hcs _ hfits)
      rw [digitStep, foldCase_of_isDigit hdigit, digitValue_of_isDigit hdigit, Option.map_some, addDigit,
        if_neg (by omega)]

theorem dottedDuration_mono (d : Nat) {j k : Nat} (h : j ≤ k) : dottedDuration d j ≤ dottedDuration d k :=
  monotone_nat_of_le_succ (f := dottedDuration d) (fun _ => Nat.le_add_right _ _) h

/-- After `j` dots, each further dot adds its bonus (R123). -/
theorem takes_dots {text : List Byte} (d j : Nat) (h : ∀ c ∈ text, c ≠ 0x20 → c = 0x2E)
    (hfits : dottedDuration d (j + solidCount text) ≤ 65535) :
    Takes dotStep (dottedDuration d j, d / 2 ^ (j + 1)) text
      (dottedDuration d (j + solidCount text), d / 2 ^ (j + solidCount text + 1)) := by
  induction text generalizing j with
  | nil => exact .nil
  | cons c cs ih =>
    have hcs := fun j => ih j fun e he => h e (List.mem_cons_of_mem c he)
    by_cases hc : c = 0x20
    · subst hc
      rw [solidCount_space] at hfits ⊢
      exact .space (hcs j hfits)
    · have hdot := h c List.mem_cons_self hc
      have hcount : j + solidCount (c :: cs) = (j + 1) + solidCount cs := by
        rw [solidCount_solid hc]; omega
      rw [hcount] at hfits ⊢
      refine .char hc ?_ (hcs (j + 1) hfits)
      have hle : dottedDuration d (j + 1) ≤ 65535 :=
        (dottedDuration_mono d (Nat.le_add_right _ _)).trans hfits
      have hadd : addDot (dottedDuration d j) (d / 2 ^ (j + 1)) = .ok (dottedDuration d (j + 1)) :=
        if_neg hle.not_gt
      rw [hdot, show foldCase 0x2E = 0x2E from rfl, dotStep_dot, hadd, Nat.div_div_eq_div_mul, ← pow_succ]
      rfl

/-! ### Each part read from the score -/

/-- The sharps of a text (R121). -/
theorem readSharps_of_shows {s : State} {text : List Byte} (p : Pitch) (hs : s.shows text)
    (htext : ∀ c ∈ text, c ≠ 0x20 → c = 0x2B ∨ c = 0x23)
    (hstop : (s.movedBy text.length).skipSpaces.char ∉ ([0x2B, 0x23] : List Byte)) :
    readSharps p s = (p.shift (solidCount text), (s.movedBy text.length).skipSpaces) := by
  have hmarks : ∀ c ∈ text, c ≠ 0x20 → foldCase c ∈ ([0x2B, 0x23] : List Byte) := fun c hc hsolid => by
    rcases htext c hc hsolid with rfl | rfl <;> decide
  have hread := readLoop_of_takes (takes_accidentals 1 p hmarks) (remaining_skipSpaces_le s) hs
    (accidentalStep_of_not_mem hstop 1 _)
  rw [← sharpsLoop_eq_readLoop, one_mul] at hread
  exact Except.ok.inj hread

/-- The flats of a text, once the sharps have fetched the character at the cursor (R121). -/
theorem readFlats_of_shows {s : State} {text : List Byte} (p : Pitch) (hs : s.shows text)
    (htext : ∀ c ∈ text, c ≠ 0x20 → c = 0x2D)
    (hstop : (s.movedBy text.length).skipSpaces.char ≠ 0x2D) :
    readFlats p s.skipSpaces = (p.shift (-solidCount text), (s.movedBy text.length).skipSpaces) := by
  have hmarks : ∀ c ∈ text, c ≠ 0x20 → foldCase c ∈ ([0x2D] : List Byte) := fun c hc hsolid => by
    rw [htext c hc hsolid]; decide
  have hread := readLoop_of_takes (takes_accidentals (-1) p hmarks) le_rfl hs
    (accidentalStep_of_not_mem (by simpa using hstop) (-1) _)
  rw [← readLoop_congr (skipSpaces_skipSpaces s), ← flatsLoop_eq_readLoop, neg_one_mul] at hread
  exact Except.ok.inj hread

/-- The number of a text of digits, once its first character is fetched (R120). -/
theorem readNumber_of_shows {s : State} {text : List Byte} (hs : s.shows text)
    (htext : ∀ c ∈ text, c ≠ 0x20 → isDigit c = true) (hfits : decimalValue text ≤ 65535)
    (hstop : isDigit (s.movedBy text.length).skipSpaces.char = false) :
    readNumber 0 s.skipSpaces = .ok (decimalValue text, (s.movedBy text.length).skipSpaces) := by
  rw [← decimalFrom_zero] at hfits ⊢
  have hread := readLoop_of_takes (takes_digits 0 htext hfits) le_rfl hs
    (by rw [digitStep, digitValue_of_not_isDigit hstop]; rfl)
  rw [← readLoop_congr (skipSpaces_skipSpaces s), ← numberLoop_eq_readLoop] at hread
  exact hread

/-- The dots of a text, once its first character is fetched (R123). -/
theorem readDots_of_shows {s : State} {text : List Byte} (d : Nat) (hs : s.shows text)
    (htext : ∀ c ∈ text, c ≠ 0x20 → c = 0x2E) (hfits : dottedDuration d (solidCount text) ≤ 65535)
    (hstop : (s.movedBy text.length).skipSpaces.char ≠ 0x2E) :
    readDots d (d / 2) s.skipSpaces =
      .ok (dottedDuration d (solidCount text), (s.movedBy text.length).skipSpaces) := by
  have htakes := takes_dots d 0 htext (by rwa [Nat.zero_add])
  have hread := readLoop_of_takes htakes le_rfl hs (dotStep_of_ne hstop _)
  rw [← readLoop_congr (skipSpaces_skipSpaces s), Nat.zero_add, Nat.zero_add, pow_one] at hread
  rw [readDots, dotsLoop_eq_readLoop]
  exact congrArg (Except.map fun r => (r.1.1, r.2)) hread

/-! ## The note of a text (R72, R121 to R125) -/

/-- A letter at the token loop consumes its byte and reads its tail (R100, R105 to R112). -/
theorem exec_of_letterPitch {s : State} {i : Instr} {p : Pitch} (hs : s.halted = false)
    (hp : s.currentPull.place = .tokens) (hi : letterPitch i s.tmpOct = some p) :
    exec i s = s.settle (tailFromSharps p s.opened.advance) := by
  cases i with
  | noteA | noteB | noteC | noteD | noteE | noteF | noteG | rest =>
    cases hi
    exact runToken_at_tokens hs hp
  | _ => cases hi

theorem tailFromDuration_eq_bind (p : Pitch) (s : State) : tailFromDuration p s =
    (noteDuration s).bind fun r => tailFromDots p r.1 (r.1 / 2) r.2 := by
  unfold tailFromDuration noteDuration tailFromDenominator
  split
  · cases readNumber 0 s with
    | error code => rfl
    | ok r =>
      simp only
      split <;> rfl
  · rfl

/-- What `issueItem` does where the plan does not fault (R124, R125). -/
theorem issueItem_of_planned {s : State} {p : Pitch} {d : Nat} {q : ToneParams}
    (h : planNote s.cfg p (BitVec.ofNat 16 (if s.eng.staccato then d - d / 2 else d))
      (s.eng.volume.setWidth 8) = .ok q) : issueItem p d s = .ok (s.afterItem d q) := by
  have hplan : planItem s p d = .ok q := by
    rw [← h, planItem, Engine.splitRest]
    cases s.eng.staccato <;> rfl
  have heng : (s.eng.withSplit d).toneStart q = (s.afterItem d q).eng := by
    unfold Engine.withSplit State.afterItem
    by_cases hon : s.eng.staccato = true
    · rw [if_pos hon, if_pos hon]; rfl
    · rw [if_neg hon, if_neg hon]; rfl
  rw [issueItem, hplan]
  exact congrArg (fun e => Except.ok { s with eng := e, pull := none }) heng

/-- The parts of a well-formed text (R72). -/
theorem NoteText.wf_iff (n : NoteText) : n.wf = true ↔
    (∀ c ∈ n.sharps, c ≠ 0x20 → c = 0x2B ∨ c = 0x23) ∧ (∀ c ∈ n.flats, c ≠ 0x20 → c = 0x2D) ∧
    (∀ c ∈ n.digits, c ≠ 0x20 → isDigit c = true) ∧ (∀ c ∈ n.dots, c ≠ 0x20 → c = 0x2E) := by
  simp only [NoteText.wf, Bool.and_eq_true, List.all_eq_true, Bool.or_eq_true, beq_iff_eq, and_assoc,
    ← or_iff_not_imp_right]

/-- A character after which a note's text is over (R72). -/
theorem endsNote_iff (cfg : Config) (c : Byte) : endsNote cfg c = true ↔
    (c ≠ 0x20 ∧ c ≠ 0x2B ∧ c ≠ 0x23 ∧ c ≠ 0x2D ∧ c ≠ 0x2E) ∧ isDigit c = false ∧
      cfg.durFirstDigits.contains c = false := by
  simp [endsNote, and_assoc]

/-- The duration of a note's text before its dots, once the accidentals are read (R122). -/
theorem noteDuration_of_shows {s : State} {n : NoteText} (hs : s.shows n.digits)
    (hfirst : ∀ c ∈ s.cfg.durFirstDigits, isDigit c = true)
    (htext : ∀ c ∈ n.digits, c ≠ 0x20 → isDigit c = true) (hlegal : n.durationLegal s.cfg = true)
    (hstop : isDigit (s.movedBy n.digits.length).skipSpaces.char = false) :
    noteDuration s.skipSpaces = .ok (n.baseDuration s.eng, (s.movedBy n.digits.length).skipSpaces) := by
  have hcfg : s.skipSpaces.cfg = s.cfg := (skipSpaces_moves s).cfg
  unfold noteDuration NoteText.baseDuration
  rw [hcfg]
  by_cases hblank : solidCount n.digits = 0
  · have hskip := skipSpaces_of_blank hs hblank
    rw [← hskip] at hstop ⊢
    have hdefault : s.skipSpaces.char ∉ s.cfg.durFirstDigits := fun hc =>
      absurd ((hfirst _ hc).symm.trans hstop) (by decide)
    rw [if_neg (by simpa using hdefault), if_pos hblank, (skipSpaces_moves s).eng]
  · have hdigit := htext _ (firstNonSpace_mem hblank) (firstNonSpace_ne_space _)
    have hchar : s.skipSpaces.char = firstNonSpace n.digits := by
      rw [char_skipSpaces_of_solid hs hblank, foldCase_of_isDigit hdigit]
    simp only [NoteText.durationLegal, beq_eq_false_iff_ne.2 hblank, Bool.false_or, Bool.and_eq_true,
      decide_eq_true_eq] at hlegal
    obtain ⟨⟨hbegins, hpos⟩, hfits⟩ := hlegal
    rw [hchar, if_pos hbegins, readNumber_of_shows hs htext hfits hstop, if_neg hblank]
    have hwhole : (s.movedBy n.digits.length).skipSpaces.eng.wholeMs = s.eng.wholeMs := by
      rw [(skipSpaces_moves _).eng]; rfl
    simp only [if_neg hpos, hwhole]

/-- What each part of a note's text meets where it ends: nothing it could go on with (R72). Here `s` stands
after the sharps. -/
theorem NoteText.stops {s : State} {n : NoteText} {cfg : Config} (hwf : n.wf = true) :
    let s2 := s.movedBy n.flats.length
    let s3 := s2.movedBy n.digits.length
    let s4 := s3.movedBy n.dots.length
    s.shows n.flats → s2.shows n.digits → s3.shows n.dots → endsNote cfg s4.char = true →
    s.skipSpaces.char ∉ ([0x2B, 0x23] : List Byte) ∧ s2.skipSpaces.char ≠ 0x2D ∧
      isDigit s3.skipSpaces.char = false ∧ s4.skipSpaces = s4 ∧ s4.char ≠ 0x2E := by
  intro s2 s3 s4 hs hs2 hs3 hend
  obtain ⟨_, hflats, hdigits, hdots⟩ := n.wf_iff.1 hwf
  obtain ⟨⟨hspace, hplus, hhash, hminus, hdot⟩, hnodigit, _⟩ := (endsNote_iff _ _).1 hend
  have hskip4 : s4.skipSpaces = s4 := skipSpaces_of_solid fun h => hspace (by rw [State.char, h]; rfl)
  have hc3 : s3.skipSpaces.char = 0x2E ∨ s3.skipSpaces.char = s4.char :=
    hskip4 ▸ char_skipSpaces_before (P := (· = 0x2E)) hs3
      fun c hc hsolid => by rw [hdots c hc hsolid]; rfl
  have hc2 : isDigit s2.skipSpaces.char = true ∨ s2.skipSpaces.char = s3.skipSpaces.char :=
    char_skipSpaces_before hs2 fun c hc hsolid => by
      rw [foldCase_of_isDigit (hdigits c hc hsolid)]; exact hdigits c hc hsolid
  have hc1 : s.skipSpaces.char = 0x2D ∨ s.skipSpaces.char = s2.skipSpaces.char :=
    char_skipSpaces_before (P := (· = 0x2D)) hs fun c hc hsolid => by rw [hflats c hc hsolid]; rfl
  have hends2 : isDigit s2.skipSpaces.char = true ∨ s2.skipSpaces.char = 0x2E ∨
      s2.skipSpaces.char = s4.char := hc2.imp_right fun h => by rw [h]; exact hc3
  have hends1 : s.skipSpaces.char = 0x2D ∨ isDigit s.skipSpaces.char = true ∨
      s.skipSpaces.char = 0x2E ∨ s.skipSpaces.char = s4.char :=
    hc1.imp_right fun h => by rw [h]; exact hends2
  refine ⟨?sharp, ?flat, ?digit, hskip4, hdot⟩
  case sharp =>
    rcases hends1 with h | h | h | h
    · rw [h]; decide
    · simpa using ⟨ne_of_isDigit (d := 0x2B) h rfl, ne_of_isDigit (d := 0x23) h rfl⟩
    · rw [h]; decide
    · rw [h]; simpa using ⟨hplus, hhash⟩
  case flat =>
    rcases hends2 with h | h | h
    · exact ne_of_isDigit h rfl
    · rw [h]; decide
    · rw [h]; exact hminus
  case digit =>
    rcases hc3 with h | h <;> rw [h]
    · rfl
    · exact hnodigit

/-- The tail of a letter whose text stands at the cursor issues the note of the text (R72, R121 to R123). -/
theorem tailFromSharps_of_shows {s : State} {p : Pitch} {n : NoteText} (hs : s.shows n.text)
    (hfirst : ∀ c ∈ s.cfg.durFirstDigits, isDigit c = true) (hwf : n.wf = true)
    (hlegal : n.durationLegal s.cfg = true) (hfits : n.duration s.eng ≤ 65535)
    (hend : endsNote s.cfg (s.movedBy n.text.length).char = true) :
    tailFromSharps p s = issueItem (n.pitch p) (n.duration s.eng) (s.movedBy n.text.length) := by
  obtain ⟨hsharps, hflats, hdigits, hdots⟩ := n.wf_iff.1 hwf
  rw [NoteText.text, movedBy_append, movedBy_append, movedBy_append] at *
  rw [List.append_assoc, List.append_assoc] at hs
  obtain ⟨hs1, hs⟩ := shows_append hs
  obtain ⟨hs2, hs⟩ := shows_append hs
  obtain ⟨hs3, hs4⟩ := shows_append hs
  obtain ⟨hstop1, hstop2, hstop3, hskip, hstop4⟩ := NoteText.stops hwf hs2 hs3 hs4 hend
  rw [tailFromSharps, readSharps_of_shows p hs1 hsharps hstop1, tailFromFlats,
    readFlats_of_shows _ hs2 hflats hstop2, tailFromDuration_eq_bind,
    noteDuration_of_shows hs3 hfirst hdigits hlegal hstop3]
  show tailFromDots _ (n.baseDuration s.eng) (n.baseDuration s.eng / 2) _ = _
  rw [tailFromDots, readDots_of_shows _ hs4 hdots hfits (by rwa [hskip]), hskip, shift_shift]
  rfl

/-- Settles O23: the parts of the text are read one after another, each to its end, and the note they make is
issued. -/
theorem noteTextPlaysItsNote : Obligations.NoteTextPlaysItsNote := by
  intro s i p n q hs hplace hi hfirst hwf hlegal hfits hshows hend hplan
  have htail : tailFromSharps p s.opened.advance = _ :=
    tailFromSharps_of_shows (s := s.opened.advance) hshows hfirst hwf hlegal hfits hend
  have hissue : issueItem (n.pitch p) (n.duration s.eng) (s.opened.advance.movedBy n.text.length) = _ :=
    issueItem_of_planned hplan
  rw [exec_of_letterPitch hs hplace hi, htail]
  exact congrArg s.settle hissue

end Sys2Proof.Machine
end

section
/-! Proofs about the planner (40_frequency_planner.md): the clamped frequency in the two units of a word, the
duty, the timeout, the rounding of the timer top, and the table of notes. -/

namespace Sys2Proof.Machine

open Sys2Proof

/-! ## The frequency of a plan (R88, R89) -/

/-- The frequency `Plan` works with, in the unit of its word (R88, R89). -/
def plannedFreq (fw : Half) : Nat := clampFreq (freqMult fw) (freqValue fw)

theorem freqMult_hz {fw : Half} (h : fw.getLsbD 15 = false) : freqMult fw = 1 := by
  rw [freqMult, h]; rfl

theorem freqMult_tenths {fw : Half} (h : fw.getLsbD 15 = true) : freqMult fw = 10 := by
  rw [freqMult, h]; rfl

theorem freqValue_hz {fw : Half} (h : fw.getLsbD 15 = false) : freqValue fw = fw.toNat := by
  rw [freqValue, h]; rfl

/-- The 15 bits below bit 15 are the word less the weight of bit 15 (R88). -/
theorem freqValue_tenths {fw : Half} (h : fw.getLsbD 15 = true) : freqValue fw = fw.toNat - 32768 := by
  have hset : 32768 ≤ fw.toNat := of_decide_eq_true (BitVec.getLsbD_last fw ▸ h)
  have hlow : (fw.extractLsb' 0 15).toNat = fw.toNat % 32768 := by simp
  rw [freqValue, if_pos h, hlow]
  omega

theorem clampFreq_hz (f : Nat) : clampFreq 1 f = min 10000 (max 40 f) := by
  unfold clampFreq
  simp only [true_and]
  split <;> split <;> omega

theorem clampFreq_tenths (f : Nat) : clampFreq 10 f = max 400 f := by
  unfold clampFreq
  simp only [OfNat.ofNat_ne_one, false_and, if_false]
  split <;> omega

theorem plannedFreq_hz {fw : Half} (h : fw.getLsbD 15 = false) :
    plannedFreq fw = min 10000 (max 40 fw.toNat) := by
  rw [plannedFreq, freqMult_hz h, freqValue_hz h, clampFreq_hz]

theorem plannedFreq_tenths {fw : Half} (h : fw.getLsbD 15 = true) :
    plannedFreq fw = max 400 (fw.toNat - 32768) := by
  rw [plannedFreq, freqMult_tenths h, freqValue_tenths h, clampFreq_tenths]

theorem plan_freq {cfg : Config} {fw d : Half} {v : Byte} {p : ToneParams}
    (h : plan cfg fw d v = .ok p) : p.freq = freqWord (freqMult fw) (plannedFreq fw) := by
  rcases plan_cases cfg fw d v with ⟨t, _, _, hp⟩ | hp
  · obtain rfl := Except.ok.inj (hp.symm.trans h)
    rfl
  · cases hp.symm.trans h

/-- Settles O38: the clamp of each unit fits the bits of its word. -/
theorem planClampsTheFrequency : Obligations.PlanClampsTheFrequency := by
  intro cfg fw d v p h
  rw [plan_freq h]
  refine ⟨fun hbit => ?hz, fun hbit => ?tenths⟩
  case hz =>
    rw [freqMult_hz hbit, plannedFreq_hz hbit]
    exact freqWord_hz_toNat (Nat.min_le_left _ _)
  case tenths =>
    have hword := fw.isLt
    rw [freqMult_tenths hbit, plannedFreq_tenths hbit]
    exact freqWord_tenths_toNat (by omega)

/-! ## The duty of a plan (R94) -/

/-- No bit of the duty is lost: it is the duty of the top value in the register. -/
theorem plan_duty_toNat {cfg : Config} {fw d : Half} {v : Byte} {p : ToneParams}
    (h : plan cfg fw d v = .ok p) : p.duty.toNat = dutyValue p.top.toNat v.toNat := by
  rcases plan_cases cfg fw d v with ⟨t, _, _, hp⟩ | hp
  · obtain rfl := Except.ok.inj (hp.symm.trans h)
    have hfits := timerTop_fits cfg (clampFreq_inUnit fw)
    rw [top_toNat cfg (clampFreq_inUnit fw)]
    exact Nat.mod_eq_of_lt ((Nat.shiftRight_le _ _).trans_lt hfits)
  · cases hp.symm.trans h

theorem dutyValue_eq_div (top v : Nat) : dutyValue top v = top / 2 ^ (16 - min v 15) :=
  Nat.shiftRight_eq_div_pow _ _

/-- Full volume is a shift by one bit. -/
theorem dutyValue_of_full {v : Nat} (h : 15 ≤ v) (top : Nat) : dutyValue top v = top / 2 := by
  rw [dutyValue, Nat.min_eq_right h]
  rfl

/-- Volume 0 shifts out all 16 bits of a top value. -/
theorem dutyValue_zero {top : Nat} (h : top < 65536) : dutyValue top 0 = 0 := by
  rw [dutyValue_eq_div]
  exact Nat.div_eq_of_lt h

/-- Settles O40: the duty is the shifted top value, at every volume and at the two ends of the range. -/
theorem planHalvesTheDuty : Obligations.PlanHalvesTheDuty := by
  intro cfg fw d v p h
  have hduty := plan_duty_toNat h
  refine ⟨hduty.trans (dutyValue_eq_div _ _), fun hv => hduty.trans (dutyValue_of_full hv _), fun hv => ?_⟩
  rw [hv, dutyValue_zero p.top.isLt] at hduty
  exact BitVec.eq_of_toNat_eq hduty

/-! ## The timeout of a plan (R92, R93) -/

theorem timeoutTicks_at_1000Hz (d : Nat) : timeoutTicks 1000 d = .ok d := by
  rw [timeoutTicks, if_pos rfl]

theorem timeoutTicks_of_fits {fHz d : Nat} (hHz : fHz ≠ 1000) (h : d * fHz < 65536000) :
    timeoutTicks fHz d = .ok (d * fHz / 1000) := by
  rw [timeoutTicks, if_neg hHz, if_neg (by omega)]

theorem timeoutTicks_of_overflow {fHz d : Nat} (hHz : fHz ≠ 1000) (h : 65536000 ≤ d * fHz) :
    timeoutTicks fHz d = .error .ovfTimeout := by
  rw [timeoutTicks, if_neg hHz, if_pos (by omega)]

theorem wholeHz_hz (f : Nat) : wholeHz 1 f = f := if_neg (by decide)

theorem wholeHz_tenths (f : Nat) : wholeHz 10 f = (f + 5) / 10 := if_pos rfl

/-- The whole Hz of a word, rounded to nearest from tenths (R92). -/
theorem wholeHz_plannedFreq (fw : Half) : wholeHz (freqMult fw) (plannedFreq fw) =
    if fw.getLsbD 15 then (max 400 (fw.toNat - 32768) + 5) / 10 else min 10000 (max 40 fw.toNat) := by
  cases hbit : fw.getLsbD 15 with
  | false => rw [freqMult_hz hbit, plannedFreq_hz hbit, wholeHz_hz, if_neg Bool.false_ne_true]
  | true => rw [freqMult_tenths hbit, plannedFreq_tenths hbit, wholeHz_tenths, if_pos rfl]

/-- A plan has the timeout of its whole Hz, which fits the register. -/
theorem plan_of_timeoutTicks_ok {fw d : Half} {t : Nat} (cfg : Config) (v : Byte)
    (h : timeoutTicks (wholeHz (freqMult fw) (plannedFreq fw)) d.toNat = .ok t) :
    ∃ p, plan cfg fw d v = .ok p ∧ p.timeout.toNat = t := by
  obtain ⟨u, hu, hfits⟩ | hfault := timeoutTicks_cases (wholeHz (freqMult fw) (plannedFreq fw)) d
  · obtain rfl := Except.ok.inj (hu.symm.trans h)
    refine ⟨_, by rw [plan, ← plannedFreq, h], ?_⟩
    exact Nat.mod_eq_of_lt (by omega)
  · cases hfault.symm.trans h

/-- The plan faults where its timeout does. -/
theorem plan_of_timeoutTicks_error {fw d : Half} {code : FaultCode} (cfg : Config) (v : Byte)
    (h : timeoutTicks (wholeHz (freqMult fw) (plannedFreq fw)) d.toNat = .error code) :
    plan cfg fw d v = .error code := by
  rw [plan, ← plannedFreq, h]

/-- Settles O41: the plan answers what the timeout of its whole Hz answers. -/
theorem planTimesOutOrFaults : Obligations.PlanTimesOutOrFaults := by
  intro cfg fw d v
  rw [← wholeHz_plannedFreq]
  refine ⟨fun hHz => ?at1000Hz, fun hHz hfits => ?fits, fun hHz hover => ?overflow⟩
  case at1000Hz =>
    obtain ⟨p, hp, ht⟩ := plan_of_timeoutTicks_ok cfg v (hHz ▸ timeoutTicks_at_1000Hz d.toNat)
    exact ⟨p, hp, BitVec.eq_of_toNat_eq ht⟩
  case fits => exact plan_of_timeoutTicks_ok cfg v (timeoutTicks_of_fits hHz hfits)
  case overflow => exact plan_of_timeoutTicks_error cfg v (timeoutTicks_of_overflow hHz hover)

/-! ## The frequency words of the notes (R87, R98) -/

theorem tableEntry_le (cfg : Config) (k : Nat) : tableEntry cfg k ≤ 1023 :=
  (cfg.noteTable[k % 12]'(Nat.mod_lt k (by decide))).property.2

/-- The two lowest octaves are in tenths, the table value doubled once an octave. -/
theorem noteFreq_tenths (cfg : Config) {n : Nat} (h : (n - 16) / 12 < 2) :
    noteFreq cfg n = freqWord 10 (tableEntry cfg (n - 16) * 2 ^ ((n - 16) / 12)) := by
  rw [noteFreq, ← Nat.shiftLeft_eq]
  exact (if_pos (by simp only [lowNote]; omega)).trans (if_neg (by simp only [lowNote]; omega))

/-- The next five octaves are in whole Hz, rounded to nearest from the doubled tenths. -/
theorem noteFreq_hz (cfg : Config) {n : Nat} (hlow : 2 ≤ (n - 16) / 12) (hhigh : (n - 16) / 12 < 7) :
    noteFreq cfg n = freqWord 1 ((tableEntry cfg (n - 16) * 2 ^ ((n - 16) / 12) + 5) / 10) := by
  rw [noteFreq, ← Nat.shiftLeft_eq]
  exact (if_pos hhigh).trans (if_pos hlow)

/-- The last octave is halved with its rounding, since the doubled tenths would not fit a word. -/
theorem noteFreq_top (cfg : Config) {n : Nat} (h : (n - 16) / 12 = 7) :
    noteFreq cfg n = BitVec.ofNat 16 ((tableEntry cfg (n - 16) * 64 + 2) / 5) :=
  if_neg (by simp only [lowNote]; omega)

/-- The doubled table value of the first seven octaves fits a word. -/
theorem tableEntry_doubled_le (cfg : Config) (k : Nat) {oct : Nat} (h : oct < 7) :
    tableEntry cfg k * 2 ^ oct ≤ 1023 * 2 ^ 6 :=
  Nat.mul_le_mul (tableEntry_le cfg k) (Nat.pow_le_pow_right (by decide) (by omega))

/-- Settles O43: by the octave of the note, whose word loses no bit of its frequency. -/
theorem noteFreqDoublesTheTable : Obligations.NoteFreqDoublesTheTable := by
  intro cfg n _ _
  have hentry := tableEntry_le cfg (n - 16)
  refine ⟨fun hlow => ?tenths, fun hlow hhigh => ?hz, fun htop => ?top⟩
  case tenths =>
    have hdoubled : tableEntry cfg (n - 16) * 2 ^ ((n - 16) / 12) ≤ 1023 * 2 ^ 1 :=
      Nat.mul_le_mul hentry (Nat.pow_le_pow_right (by decide) (by omega))
    rw [noteFreq_tenths cfg hlow]
    exact freqWord_tenths_toNat (by omega)
  case hz =>
    have hdoubled := tableEntry_doubled_le cfg (n - 16) hhigh
    rw [noteFreq_hz cfg hlow hhigh]
    exact freqWord_hz_toNat (by omega)
  case top =>
    rw [noteFreq_top cfg htop]
    exact Nat.mod_eq_of_lt (by omega)

/-! ## The real frequency of a plan (R91, R168) -/

/-- A quotient rounded to nearest is within half of its divisor. -/
theorem abs_sub_mul_roundedDiv_le (a f : Nat) (hf : 0 < f) :
    2 * |(a : Int) - f * ((a + f / 2) / f : Nat)| ≤ f := by
  have hdiv : (f : Int) * ((a + f / 2) / f : Nat) + ((a + f / 2) % f : Nat) = a + (f / 2 : Nat) := by
    exact_mod_cast Nat.div_add_mod (a + f / 2) f
  have hmod : (a + f / 2) % f < f := Nat.mod_lt _ hf
  have herr : (a : Int) - f * ((a + f / 2) / f : Nat) = ((a + f / 2) % f : Nat) - (f / 2 : Nat) := by
    linarith
  rw [herr]
  rcases abs_cases (((a + f / 2) % f : Nat) - (f / 2 : Nat) : Int) with ⟨habs, _⟩ | ⟨habs, _⟩ <;> omega

/-- A clamped frequency is not 0. -/
theorem InUnit.pos {mult f : Nat} (h : InUnit mult f) : 0 < f := by
  rcases h with ⟨_, hlow, _⟩ | ⟨_, hlow, _⟩ <;> omega

/-- From 500 000 counts per second on every timer top has at least 50 counts (R90, R91). -/
theorem le_timerTop {cfg : Config} (hclk : 500000 ≤ cfg.toneClkHz.val) {mult f : Nat} (h : InUnit mult f) :
    50 ≤ timerTop (clockRate cfg (selectPrescale mult f)) mult f := by
  rw [timerTop, Nat.le_div_iff_mul_le h.pos, clockRate_selectPrescale]
  rcases h with ⟨rfl, _, _⟩ | ⟨rfl, _, _⟩ <;> split <;> omega

/-- Settles O44: the top is rounded to nearest, and half a count of 50 is 1%. -/
theorem plannedTopRoundTrips : Obligations.PlannedTopRoundTrips := by
  intro cfg fw d v p h
  obtain ⟨mult, f, hu, hfreq, hpre, htop⟩ := plan_tone h
  have hmult : (if p.freq.getLsbD 15 then 10 else 1 : Int) = (mult : Nat) := by
    rw [← freqWord_unit hu, hfreq]; push_cast; rfl
  have hrate : (if p.prescale = .div1 then cfg.toneClkHz.val else cfg.toneClkHz.val / 8) =
      clockRate cfg (selectPrescale mult f) := by
    rw [hpre]; cases selectPrescale mult f <;> rfl
  have hhalf : 2 * |(clockRate cfg (selectPrescale mult f) : Int) * mult - f * p.top.toNat| ≤ f := by
    rw [htop, top_toNat cfg hu]
    exact_mod_cast abs_sub_mul_roundedDiv_le (clockRate cfg (selectPrescale mult f) * mult) f hu.pos
  rw [hmult, hrate, hfreq, freqWord_value hu]
  refine ⟨hhalf, fun hclk => ?onePercent⟩
  case onePercent =>
    have hcounts : (50 : Int) ≤ p.top.toNat := by
      rw [htop, top_toNat cfg hu]
      exact_mod_cast le_timerTop hclk hu
    calc 100 * |(clockRate cfg (selectPrescale mult f) : Int) * mult - f * p.top.toNat|
        ≤ f * 50 := by linarith
      _ ≤ f * p.top.toNat := mul_le_mul_of_nonneg_left hcounts (by positivity)

/-! ## The plan of a note (R86, R99) -/

theorem planNote_volume_zero (cfg : Config) (n : Int) (d : Half) :
    planNote cfg (.note n) d 0 = planSilent cfg d := by
  rw [planNote, if_pos rfl]

theorem planNote_of_volume {v : Byte} (h : v ≠ 0) (cfg : Config) (n : Int) (d : Half) :
    planNote cfg (.note n) d v =
      plan cfg (noteFreq cfg (clampNote n)) d (BitVec.ofNat 8 (min v.toNat 15)) := if_neg h

/-- Settles O42: a silent note and volume 0 have the plan of silence, any other note the plan of its word. -/
theorem planNoteClampsAndSilences : Obligations.PlanNoteClampsAndSilences := by
  intro cfg n d v
  exact ⟨(planNote_silent cfg d v).trans (planSilent_eq cfg d),
    (planNote_volume_zero cfg n d).trans (planSilent_eq cfg d), fun hv => planNote_of_volume hv cfg n d⟩

/-! ## Instructions answer (R85, R126, R138) -/

/-- Settles O48: a command and a score byte settle their own faults, and every pull ends within its score. -/
theorem everyInstructionAnswers : Obligations.EveryInstructionAnswers := exec_answers

end Sys2Proof.Machine
end

section
/-! Proofs about the pull of the sequence parser (41_sequence_parser.md): the pending rest, the end of the
sequence, and a pull as the run of its score tokens. -/

namespace Sys2Proof.Machine

open Sys2Proof

/-! ## The pending rest (R101) -/

theorem restPending_iff (e : Engine) :
    e.restPending = true ↔ e.staccato = true ∧ e.staccRest ≠ 0 := by
  simp [Engine.restPending]

theorem runPull_of_rest {s : State} (origin : Engine) (h : s.eng.restPending = true) :
    runPull origin s = (s.openPull origin).settle (playPendingRest (s.openPull origin)) := if_pos h

theorem runPull_of_no_rest {s : State} (origin : Engine)
    (h : ¬(s.eng.staccato = true ∧ s.eng.staccRest ≠ 0)) :
    runPull origin s = pullLoop (s.remaining + 1) (s.openPull origin) :=
  if_neg (mt (restPending_iff s.eng).1 h)

/-- Settles O18: the plan of a silent note never faults, so a pending rest is what the pull issues. -/
theorem pendingRestPlaysFirst : Obligations.PendingRestPlaysFirst := by
  intro origin s hon hrest
  rw [runPull_of_rest origin ((restPending_iff s.eng).2 ⟨hon, hrest⟩), playPendingRest_eq]
  rfl

/-! ## A score byte at its place (R71, R73, R100) -/

/-- A byte that the place accepts is consumed and has its effect there. -/
theorem runByte_of_effect {effect : Place → Option (State → Except FaultCode State)}
    {f : State → Except FaultCode State} {s : State} (hs : s.halted = false)
    (h : effect s.currentPull.place = some f) : runByte effect s = s.settle (f s.opened.advance) := by
  rw [runByte, unlessHalted_of_live hs, h]

/-- Where the place does not accept the byte, the pull goes on without it. -/
theorem runByte_of_no_effect {effect : Place → Option (State → Except FaultCode State)} {s : State}
    (hs : s.halted = false) (h : effect s.currentPull.place = none) :
    runByte effect s = s.settle (resumeAt s.currentPull.place s.opened) := by
  rw [runByte, unlessHalted_of_live hs, h]

/-! ## The end of the sequence (R119) -/

theorem endOfScore_eq_afterEnd (s : State) : endOfScore s = s.afterEnd := by
  have htrace : s.eng.trace ++ [Event.silent] ++ [.endOfSequence] =
      s.eng.trace ++ [.silent, .endOfSequence] := List.append_assoc _ _ _
  rw [State.afterEnd, ← htrace]
  rfl

theorem afterEnd_opened_advance (s : State) : s.opened.advance.afterEnd = s.advance.afterEnd := rfl

/-- A byte that has no effect at the token loop is consumed and ends the sequence there. -/
theorem runByte_ends_sequence {effect : Place → Option (State → Except FaultCode State)}
    (he : effect .tokens = none) {s : State} (hs : s.halted = false)
    (hp : s.currentPull.place = .tokens) : runByte effect s = .next s.advance.afterEnd := by
  rw [runByte_of_no_effect hs (hp ▸ he), hp, resumeAt, settle_ok, endOfScore_eq_afterEnd,
    afterEnd_opened_advance]

/-- Settles O30: the terminator is a token of the loop; the other bytes have their places inside a token
and none at the loop. -/
theorem terminatorEndsTheSequence : Obligations.TerminatorEndsTheSequence := by
  intro s i hs hp hi
  cases i with
  | terminator byte =>
    have hend : exec (.terminator byte) s = .next (endOfScore s.opened.advance) :=
      runToken_at_tokens hs hp
    rw [hend, endOfScore_eq_afterEnd, afterEnd_opened_advance]
  | sharpPlus | sharpHash => exact runByte_ends_sequence (effect := sharpEffect) rfl hs hp
  | flat => exact runByte_ends_sequence (effect := flatEffect) rfl hs hp
  | digitLow | digitHigh => exact runByte_ends_sequence (effect := digitEffect _) rfl hs hp
  | dot => exact runByte_ends_sequence (effect := dotEffect) rfl hs hp
  | _ => cases hi

/-- The token at the cursor is the score's, whatever pull reads it. -/
theorem nextToken_openPull (s : State) (origin : Engine) :
    (s.openPull origin).nextToken = s.nextToken := by
  rw [← decodeScore_scoreAhead, ← decodeScore_scoreAhead]
  rfl

/-- Settles O19: the first turn of the pull's loop runs that byte, which leaves no pull to go on with. -/
theorem pullEndsAtATerminator : Obligations.PullEndsAtATerminator := by
  intro origin s hs hrest hi
  rw [← nextToken_openPull s origin] at hi
  have hend := terminatorEndsTheSequence (s.openPull origin) _ hs rfl hi
  rw [runPull_of_no_rest origin hrest, pullLoop_of_open (s.openPull_pull origin) hend]
  exact pullLoop_of_closed rfl _

/-! ## A pull as the run of its score tokens (R100, R145) -/

/-- `n` steps lead from `s` to `t`, where the pull is over for the first time. -/
def PullRun (n : Nat) (s t : State) : Prop :=
  Host.Core.run Sys2Proof.core n s = .next t ∧ t.pull = none ∧
    ∀ k < n, ∃ u : State, Host.Core.run Sys2Proof.core k s = .next u ∧ u.pull.isSome = true

theorem run_succ_of_step {M : Host.Core} {s u : M.State} (h : M.step s = .next u) (n : Nat) :
    M.run (n + 1) s = M.run n u := by
  rw [Host.Core.run, h]

theorem PullRun.zero {s : State} (h : s.pull = none) : PullRun 0 s s := ⟨rfl, h, nofun⟩

/-- A token run in a pull in progress is one more step of its run. -/
theorem PullRun.succ {n : Nat} {s u t : State} {c : PullState} (hc : s.pull = some c)
    (hu : exec s.nextToken s = .next u) (h : PullRun n u t) : PullRun (n + 1) s t := by
  obtain ⟨hrun, hclosed, hbefore⟩ := h
  have hstep : Sys2Proof.core.step s = .next u := (step_of_pull hc).trans hu
  refine ⟨(run_succ_of_step hstep n).trans hrun, hclosed, fun k hk => ?_⟩
  cases k with
  | zero => exact ⟨s, rfl, Option.isSome_of_eq_some hc⟩
  | succ k =>
    rw [run_succ_of_step hstep]
    exact hbefore k (Nat.lt_of_succ_lt_succ hk)

/-- The loop of a pull in progress is the run of its tokens, each of which leaves fewer bytes to read or ends
the pull. -/
theorem pullLoop_eq_run (k : Nat) {s : State} {c : PullState} (hc : s.pull = some c)
    (hs : s.halted = false) (hp : s.currentPull.place = .tokens) (hk : s.remaining < k) :
    ∃ n t, n ≤ s.remaining ∧ pullLoop k s = .next t ∧ PullRun (n + 1) s t := by
  induction k generalizing s c with
  | zero => exact absurd hk (Nat.not_lt_zero _)
  | succ k ih =>
    obtain ⟨u, hu⟩ := exec_nextToken_answers s
    rw [pullLoop_of_open hc hu]
    cases hclosed : u.pull with
    | none =>
      exact ⟨0, u, Nat.zero_le _, pullLoop_of_closed hclosed k, (PullRun.zero hclosed).succ hc hu⟩
    | some d =>
      rcases exec_nextToken_shortens hs hp hu with hnone | ⟨hlive, hplace, hrem⟩
      · cases hclosed.symm.trans hnone
      · obtain ⟨n, t, hn, hloop, hrun⟩ := ih hclosed hlive hplace (by omega)
        exact ⟨n + 1, t, by omega, hloop, hrun.succ hc hu⟩

/-- Settles O20: by induction on the bound of the pull's loop, which the score bytes that remain never
reach. -/
theorem pullIsItsTokenSteps : Obligations.PullIsItsTokenSteps := by
  intro origin s hs hrest
  obtain ⟨n, t, hn, hloop, hrun, hclosed, hbefore⟩ :=
    pullLoop_eq_run (s.remaining + 1) (s.openPull_pull origin) hs rfl (Nat.lt_succ_self _)
  exact ⟨n + 1, t, Nat.succ_pos n, Nat.succ_le_succ hn,
    (runPull_of_no_rest origin hrest).trans hloop, hclosed, hrun, hbefore⟩

end Sys2Proof.Machine
end

section
/-! Proofs about the score tokens of the sequence parser (41_sequence_parser.md): the tokens of the loop, the
settings with their numbers, and the bytes that go on inside a token. -/

namespace Sys2Proof.Machine

open Sys2Proof

/-! ## Tokens with no operand (R103, R104, R117, R118) -/

/-- A token of the loop that cannot fault. -/
theorem runToken_ok {f : State → State} {s : State} (hs : s.halted = false)
    (hp : s.currentPull.place = .tokens) :
    runToken (fun t => .ok (f t)) s = .next (f s.opened.advance) :=
  runToken_at_tokens hs hp

/-- Settles O21: an octave shift is a token of the loop that rewrites the pull only. -/
theorem octaveShiftsAreTemporary : Obligations.OctaveShiftsAreTemporary :=
  fun _ hs hp => ⟨runToken_ok hs hp, runToken_ok hs hp⟩

/-- Settles O28: a music style is a token of the loop that consumes one more character. -/
theorem musicStyleWritesStaccato : Obligations.MusicStyleWritesStaccato :=
  fun _ _ hs hp => ⟨runToken_ok hs hp, runToken_ok hs hp⟩

/-- Settles O29: `!` is a token of the loop that writes the music registers. -/
theorem resetMusicRestoresDefaults : Obligations.ResetMusicRestoresDefaults :=
  fun _ hs hp => runToken_ok hs hp

/-! ## Settings (R113 to R116, R120) -/

theorem settingToken_of_number {setting : Setting} {s t : State} {n : Nat}
    (h : readNumber 0 s = .ok (n, t)) : settingToken setting s = applySetting setting n t := by
  rw [settingToken, settingFromNumber, h]

theorem settingToken_of_fault {setting : Setting} {s : State} {code : FaultCode}
    (h : readNumber 0 s = .error code) : settingToken setting s = .error code := by
  rw [settingToken, settingFromNumber, h]

/-- A number read in a token of the loop leaves the pull that runs the token as it is. -/
theorem pull_of_readNumber {s t : State} {m n : Nat} (h : readNumber m s.opened.advance = .ok (n, t)) :
    t.pull = some s.currentPull :=
  (readNumber_moves h).pull

theorem atPlace_of_place {s : State} {c : PullState} (hc : s.pull = some c) :
    s.atPlace c.place = s := by
  rw [State.atPlace, State.mapPull, hc]
  exact congrArg (fun q => { s with pull := q }) hc.symm

/-- A settings token at the loop, its number read, applies it where the pull stands. -/
theorem runSetting_of_number {setting : Setting} {s t : State} {n : Nat} (hs : s.halted = false)
    (hp : s.currentPull.place = .tokens) (h : readNumber 0 s.opened.advance = .ok (n, t)) :
    runToken (settingToken setting) s = s.settle (applySetting setting n t) ∧ t.atPlace .tokens = t :=
  ⟨by rw [runToken_at_tokens hs hp, settingToken_of_number h],
    hp ▸ atPlace_of_place (pull_of_readNumber h)⟩

/-- A settings token at the loop whose number faults is rolled back. -/
theorem runSetting_of_fault {setting : Setting} {s : State} {code : FaultCode} (hs : s.halted = false)
    (hp : s.currentPull.place = .tokens) (h : readNumber 0 s.opened.advance = .error code) :
    runToken (settingToken setting) s = .next (s.raise code) := by
  rw [runToken_at_tokens hs hp, settingToken_of_fault h, settle_error]

/-- Settles O24: the number read, `O` writes the octave of the registers and of the pull. -/
theorem setOctaveWritesTheOctave : Obligations.SetOctaveWritesTheOctave := by
  refine fun s hs hp => ⟨fun n t h => ?_, fun code h => runSetting_of_fault hs hp h⟩
  obtain ⟨hrun, hplace⟩ := runSetting_of_number (setting := .octave) hs hp h
  rw [applySetting, applyOctave, hplace] at hrun
  have hpull : t.pull.map (fun c => { c with tmpOct := (n : Int) }) =
      some { s.currentPull with tmpOct := n } := by rw [pull_of_readNumber h]; rfl
  rw [← hpull]
  exact hrun

/-- Settles O25: the number read, `T` faults or writes the two durations. -/
theorem setTempoWritesTheDurations : Obligations.SetTempoWritesTheDurations := by
  refine fun s hs hp => ⟨fun n t h => ?_, fun code h => runSetting_of_fault hs hp h⟩
  obtain ⟨hrun, hplace⟩ := runSetting_of_number (setting := .tempo) hs hp h
  rw [applySetting, applyTempo, hplace] at hrun
  refine ⟨fun h0 => ?zero, fun h0 hlong => ?overflow, fun h0 hfits => ?fits⟩
  case zero => rw [if_pos h0] at hrun; exact hrun
  case overflow =>
    have hlong' : 65535 < wholeNoteMs n := hlong
    rw [if_neg h0, if_pos hlong'] at hrun; exact hrun
  case fits =>
    have hfits' : ¬65535 < wholeNoteMs n := hfits.not_gt
    rw [if_neg h0, if_neg hfits'] at hrun; exact hrun

/-- Settles O26: the number read, `L` faults or writes the denominator and its duration. -/
theorem setLengthWritesTheDenominator : Obligations.SetLengthWritesTheDenominator := by
  refine fun s hs hp => ⟨fun n t h => ?_, fun code h => runSetting_of_fault hs hp h⟩
  obtain ⟨hrun, hplace⟩ := runSetting_of_number (setting := .length) hs hp h
  rw [applySetting, applyLength, hplace] at hrun
  refine ⟨fun h0 => ?zero, fun h0 => ?nonzero⟩
  case zero => rw [if_pos h0] at hrun; exact hrun
  case nonzero => rw [if_neg h0] at hrun; exact hrun

/-- Settles O27: the number read, `V` writes the clamped volume. -/
theorem setVolumeClampsTheVolume : Obligations.SetVolumeClampsTheVolume := by
  refine fun s hs hp => ⟨fun n t h => ?_, fun code h => runSetting_of_fault hs hp h⟩
  obtain ⟨hrun, hplace⟩ := runSetting_of_number (setting := .volume) hs hp h
  rw [applySetting, applyVolume, hplace] at hrun
  exact hrun

/-! ## Note tails (R121 to R125) -/

/-- What `issueItem` does where the plan faults (R125). -/
theorem issueItem_of_fault {s : State} {p : Pitch} {d : Nat} {code : FaultCode}
    (h : planNote s.cfg p (BitVec.ofNat 16 (if s.eng.staccato then d - d / 2 else d))
      (s.eng.volume.setWidth 8) = .error code) : issueItem p d s = .error code := by
  have hplan : planItem s p d = .error code := by
    rw [← h, planItem, Engine.splitRest]
    cases s.eng.staccato <;> rfl
  rw [issueItem, hplan]

/-- An instruction that runs the tail from the duration on does what the duration, the dots and the plan
say, one after another. -/
theorem tailGoesOn_of_settle {i : Instr} {s : State} {b : Pitch × State}
    (h : exec i s = s.settle (tailFromDuration b.1 b.2)) : tailGoesOn i s b := by
  rw [tailFromDuration_eq_bind] at h
  refine ⟨fun code hdur => ?duration, fun d u hdur => ?_⟩
  case duration => rw [h, hdur]; rfl
  rw [hdur] at h
  replace h : exec i s = s.settle (tailFromDots b.1 d (d / 2) u) := h
  rw [tailFromDots] at h
  refine ⟨fun code hdots => ?dots, fun d' v hdots => ?_⟩
  case dots => rw [h, hdots]; rfl
  rw [hdots] at h
  replace h : exec i s = s.settle (issueItem b.1 d' v) := h
  refine ⟨fun code hplan => ?fault, fun q hplan => ?issue⟩
  case fault => rw [h, issueItem_of_fault hplan]; rfl
  case issue => rw [h, issueItem_of_planned hplan]; rfl

/-- Settles O22: a letter runs its tail, which goes on from the duration once the accidentals are read. -/
theorem lettersPlayTheirTail : Obligations.LettersPlayTheirTail :=
  fun _ _ _ hs hp hi => tailGoesOn_of_settle (exec_of_letterPitch hs hp hi)

/-! ## Bytes inside a token (R120 to R123) -/

/-- A byte consumed by which the pull comes to another place. -/
def State.consumedTo (s : State) (place : Place) : State :=
  { s.advance with pull := some { s.currentPull with place := place } }

theorem atPlace_opened_advance (s : State) (place : Place) :
    s.opened.advance.atPlace place = s.consumedTo place := rfl

/-- A byte that only moves the pull to another place. -/
theorem runByte_consumedTo {effect : Place → Option (State → Except FaultCode State)} {s : State}
    {place : Place} (hs : s.halted = false)
    (h : effect s.currentPull.place = some fun u => .ok (u.atPlace place)) :
    runByte effect s = .next (s.consumedTo place) := by
  rw [runByte_of_effect hs h, settle_ok, atPlace_opened_advance]

/-- Folding makes no other byte out of a space (R53). -/
theorem scoreByte_ne_space_of_char {s : State} (h : s.char ≠ 0x20) : s.scoreByte ≠ 0x20 := by
  intro hspace
  rw [State.char, hspace] at h
  exact h rfl

/-- The flats end at once before a character that is neither a flat nor a space (R121). -/
theorem readFlats_of_char {s : State} (p : Pitch) (hspace : s.char ≠ 0x20) (hflat : s.char ≠ 0x2D) :
    readFlats p s = (p, s) := by
  have hskip : s.skipSpaces = s := skipSpaces_of_solid (scoreByte_ne_space_of_char hspace)
  have hstop : accidentalStep [0x2D] (-1) p s.skipSpaces.char = none :=
    accidentalStep_of_not_mem (by simpa [hskip] using hflat) (-1) p
  have hread := readLoop_stop hstop s.remaining
  rw [← flatsLoop_eq_readLoop, hskip] at hread
  exact Except.ok.inj hread

/-- In the flats a sharp is left unread and the tail goes on (R121). -/
theorem runSharp_in_flats {s : State} {p : Pitch} (hs : s.halted = false)
    (hp : s.currentPull.place = .flats p) :
    runByte sharpEffect s = s.settle (tailFromFlats p s.opened) := by
  rw [runByte_of_no_effect hs (by rw [hp]; rfl), hp]
  rfl

/-- Settles O31: by the effect of an accidental at each of the two places, and its absence at the flats. -/
theorem accidentalBytesShiftThePitch : Obligations.AccidentalBytesShiftThePitch := by
  intro s p hs
  refine ⟨fun hp => ?sharps, fun hp => ?flat, fun hp => ?unread⟩
  case sharps =>
    have hrun : runByte sharpEffect s = .next (s.consumedTo (.sharps (p.shift 1))) :=
      runByte_consumedTo hs (by rw [hp]; rfl)
    exact ⟨hrun, hrun⟩
  case flat =>
    have heffect : flatEffect s.currentPull.place =
        some fun u => .ok (u.atPlace (.flats (p.shift (-1)))) := by
      rcases hp with hp | hp <;> rw [hp] <;> rfl
    exact runByte_consumedTo hs heffect
  case unread =>
    refine ⟨fun hc => ?_, tailGoesOn_of_settle (runSharp_in_flats hs hp),
      tailGoesOn_of_settle (runSharp_in_flats hs hp)⟩
    have hchar : s.opened.char = 0x2B ∨ s.opened.char = 0x23 := hc
    rcases hchar with h | h <;> exact readFlats_of_char p (by rw [h]; decide) (by rw [h]; decide)

theorem addDigit_of_le {n v : Nat} (h : 10 * n + v ≤ 65535) : addDigit n v = .ok (10 * n + v) :=
  if_neg h.not_gt

theorem addDigit_of_lt {n v : Nat} (h : 65535 < 10 * n + v) : addDigit n v = .error .ovfNum := if_pos h

theorem addDot_of_le {d bonus : Nat} (h : d + bonus ≤ 65535) : addDot d bonus = .ok (d + bonus) :=
  if_neg h.not_gt

theorem addDot_of_lt {d bonus : Nat} (h : 65535 < d + bonus) : addDot d bonus = .error .ovfDur := if_pos h

/-- The pull stands in a number, `n` read so far; with `m` read it stands at `place m` (R120, R122). -/
def State.InNumber (s : State) (place : Nat → Place) (n : Nat) : Prop :=
  ∀ v, digitEffect v s.currentPull.place =
    some fun u => (addDigit n v).map fun m => u.atPlace (place m)

theorem inNumber_of_number {s : State} {setting : Setting} {n : Nat}
    (hp : s.currentPull.place = .number setting n) : s.InNumber (.number setting) n := by
  intro v
  rw [hp, digitEffect]
  refine congrArg some (funext fun u => ?_)
  cases addDigit n v <;> rfl

theorem inNumber_of_denominator {s : State} {p : Pitch} {n : Nat}
    (hp : s.currentPull.place = .denominator p n) : s.InNumber (.denominator p) n := by
  intro v
  rw [hp, digitEffect]
  refine congrArg some (funext fun u => ?_)
  cases addDigit n v <;> rfl

theorem runDigit_of_le {s : State} {place : Nat → Place} {n v : Nat} (hs : s.halted = false)
    (hn : s.InNumber place n) (h : 10 * n + v ≤ 65535) :
    runByte (digitEffect v) s = .next (s.consumedTo (place (10 * n + v))) := by
  rw [runByte_of_effect hs (hn v), addDigit_of_le h, Except.map, settle_ok, atPlace_opened_advance]

theorem runDigit_of_lt {s : State} {place : Nat → Place} {n v : Nat} (hs : s.halted = false)
    (hn : s.InNumber place n) (h : 65535 < 10 * n + v) :
    runByte (digitEffect v) s = .next (s.raise .ovfNum) := by
  rw [runByte_of_effect hs (hn v), addDigit_of_lt h, Except.map, settle_error]

theorem dotEffect_dots (p : Pitch) (d bonus : Nat) : dotEffect (.dots p d bonus) =
    some fun u => (addDot d bonus).map fun d' => u.atPlace (.dots p d' (bonus / 2)) := by
  refine congrArg some (funext fun u => ?_)
  cases addDot d bonus <;> rfl

/-- Settles O32: a digit does the same in both kinds of number, and a dot adds its bonus, each with the check
of its width. -/
theorem digitAndDotBytesAccumulate : Obligations.DigitAndDotBytesAccumulate := by
  intro s hs
  refine ⟨fun setting n hp => ?number, fun p n hp => ?denominator, fun p d bonus hp => ?dots⟩
  case number =>
    have hn := inNumber_of_number hp
    exact ⟨fun _ => runDigit_of_le hs hn, fun _ => runDigit_of_le hs hn,
      fun _ => runDigit_of_lt hs hn, fun _ => runDigit_of_lt hs hn⟩
  case denominator =>
    have hn := inNumber_of_denominator hp
    exact ⟨fun _ => runDigit_of_le hs hn, fun _ => runDigit_of_le hs hn,
      fun _ => runDigit_of_lt hs hn, fun _ => runDigit_of_lt hs hn⟩
  case dots =>
    have hrun := runByte_of_effect hs ((congrArg dotEffect hp).trans (dotEffect_dots p d bonus))
    refine ⟨fun h => ?_, fun h => ?_⟩
    · rw [addDot_of_le h] at hrun; exact hrun
    · rw [addDot_of_lt h] at hrun; exact hrun

end Sys2Proof.Machine
end

section
/-! Proofs about the operands of the sequence parser (41_sequence_parser.md): what a number, the accidentals
and the dots read from a text at the cursor. -/

namespace Sys2Proof.Machine

open Sys2Proof

/-! ## The character after a text -/

theorem charAfter_eq_char_movedBy (s : State) (k : Nat) : s.charAfter k = (s.movedBy k).char := rfl

/-- Past a text that no space follows, a fetch skips nothing. -/
theorem skipSpaces_movedBy {s : State} {k : Nat} (h : s.charAfter k ≠ 0x20) :
    (s.movedBy k).skipSpaces = s.movedBy k :=
  skipSpaces_of_solid (scoreByte_ne_space_of_char h)

/-- The characters of a text that a loop takes, its spaces aside. -/
theorem solid_of_all_or_space {text : List Byte} {q : Byte → Bool}
    (h : text.all (fun c => q c || c == 0x20) = true) : ∀ c ∈ text, c ≠ 0x20 → q c = true := by
  intro c hc hsolid
  have hor := List.all_eq_true.1 h c hc
  rw [Bool.or_eq_true, beq_iff_eq] at hor
  exact hor.resolve_right hsolid

/-! ## Texts that fault (R120, R123) -/

/-- A character of the text that is no space is fetched where it stands, and taking it leaves one turn of the
loop less to make. -/
theorem fetch_of_shows_solid {s : State} {c : Byte} {cs : List Byte} (hs : s.shows (c :: cs))
    (hc : c ≠ 0x20) {k : Nat} (hk : s.skipSpaces.remaining ≤ k) :
    s.skipSpaces.char = foldCase c ∧ s.skipSpaces.advance = s.movedBy 1 ∧
      ∃ k', k = k' + 1 ∧ (s.movedBy 1).skipSpaces.remaining ≤ k' := by
  obtain ⟨hpos, hbyte, _⟩ := shows_cons hs
  have hskip : s.skipSpaces = s := skipSpaces_of_solid (hbyte ▸ hc)
  have hadvance := advance_eq_movedBy (Nat.lt_of_sub_pos hpos)
  have hrem := remaining_advance s hpos
  have hnext := remaining_skipSpaces_le s.advance
  rw [hadvance] at hrem hnext
  rw [hskip] at hk ⊢
  exact ⟨congrArg foldCase hbyte, hadvance, k - 1, by omega, by omega⟩

/-- The loop takes characters of the text until one of them faults. -/
inductive FaultsIn {α : Type} (f : CharStep α) (code : FaultCode) : α → List Byte → Prop
  | here {a c cs} (hc : c ≠ 0x20) (hf : f a (foldCase c) = some (.error code)) :
      FaultsIn f code a (c :: cs)
  | space {a cs} (h : FaultsIn f code a cs) : FaultsIn f code a (0x20 :: cs)
  | char {a a' c cs} (hc : c ≠ 0x20) (hf : f a (foldCase c) = some (.ok a'))
      (h : FaultsIn f code a' cs) : FaultsIn f code a (c :: cs)

/-- A text in which the loop faults is read as that fault. -/
theorem readLoop_of_faultsIn {α : Type} {f : CharStep α} {code : FaultCode} {a : α} {text : List Byte}
    (h : FaultsIn f code a text) {s : State} {k : Nat} (hk : s.skipSpaces.remaining ≤ k)
    (hs : s.shows text) : readLoop f k a s = .error code := by
  induction h generalizing s k with
  | space _ ih =>
    obtain ⟨_, hbyte, hcs⟩ := shows_cons hs
    have hskip := skipSpaces_of_space hbyte
    rw [readLoop_congr hskip]
    exact ih (hskip ▸ hk) hcs
  | here hc hf =>
    obtain ⟨hchar, _, k, rfl, _⟩ := fetch_of_shows_solid hs hc hk
    exact readLoop_fault (hchar ▸ hf) k
  | char hc hf _ ih =>
    obtain ⟨hchar, hadvance, k, rfl, hk'⟩ := fetch_of_shows_solid hs hc hk
    obtain ⟨_, _, hcs⟩ := shows_cons hs
    rw [readLoop_take (hchar ▸ hf), hadvance]
    exact ih hk' hcs

theorem digitStep_of_isDigit {c : Byte} (h : isDigit c = true) (n : Nat) :
    digitStep n (foldCase c) = some (addDigit n (c.toNat - 0x30)) := by
  rw [digitStep, foldCase_of_isDigit h, digitValue_of_isDigit h, Option.map_some]

/-- A number that does not fit 16 bits faults at the digit that makes it so (R120). -/
theorem faultsIn_digits {text : List Byte} (n : Nat) (hn : n ≤ 65535)
    (h : ∀ c ∈ text, c ≠ 0x20 → isDigit c = true) (hover : 65535 < decimalFrom n text) :
    FaultsIn digitStep .ovfNum n text := by
  induction text generalizing n with
  | nil => exact absurd hover hn.not_gt
  | cons c cs ih =>
    have hcs := fun n hn => ih n hn fun d hd => h d (List.mem_cons_of_mem c hd)
    by_cases hc : c = 0x20
    · subst hc
      rw [decimalFrom_space] at hover
      exact .space (hcs n hn hover)
    · have hstep := digitStep_of_isDigit (h c List.mem_cons_self hc) n
      rw [decimalFrom_solid n hc] at hover
      rcases Nat.lt_or_ge 65535 (10 * n + (c.toNat - 0x30)) with hlt | hle
      · exact .here hc (hstep.trans (congrArg some (addDigit_of_lt hlt)))
      · exact .char hc (hstep.trans (congrArg some (addDigit_of_le hle))) (hcs _ hle hover)

theorem dotStep_foldCase_dot (d bonus : Nat) :
    dotStep (d, bonus) (foldCase 0x2E) = some ((addDot d bonus).map (·, bonus / 2)) :=
  dotStep_dot (d, bonus)

/-- A duration that does not fit 16 bits faults at the dot that makes it so (R123). -/
theorem faultsIn_dots {text : List Byte} (d j : Nat) (hfits : dottedDuration d j ≤ 65535)
    (h : ∀ c ∈ text, c ≠ 0x20 → c = 0x2E)
    (hover : 65535 < dottedDuration d (j + solidCount text)) :
    FaultsIn dotStep .ovfDur (dottedDuration d j, d / 2 ^ (j + 1)) text := by
  induction text generalizing j with
  | nil => exact absurd hover hfits.not_gt
  | cons c cs ih =>
    have hcs := fun j hj => ih j hj fun e he => h e (List.mem_cons_of_mem c he)
    by_cases hc : c = 0x20
    · subst hc
      rw [solidCount_space] at hover
      exact .space (hcs j hfits hover)
    · have hstep := dotStep_foldCase_dot (dottedDuration d j) (d / 2 ^ (j + 1))
      rw [← h c List.mem_cons_self hc, Nat.div_div_eq_div_mul, ← pow_succ] at hstep
      have hcount : j + solidCount (c :: cs) = (j + 1) + solidCount cs := by
        rw [solidCount_solid hc]; omega
      rw [hcount] at hover
      rcases Nat.lt_or_ge 65535 (dottedDuration d j + d / 2 ^ (j + 1)) with hlt | hle
      · rw [addDot_of_lt hlt] at hstep
        exact .here hc hstep
      · rw [addDot_of_le hle] at hstep
        exact .char hc hstep (hcs (j + 1) hle hover)

/-! ## Numbers (R74, R120) -/

/-- Settles O35: the digits are taken one after another to the end of the text, or to the one that
overflows. -/
theorem numberReadsItsDigits : Obligations.NumberReadsItsDigits := by
  intro s text hall hs hspace hdigit
  have htext := solid_of_all_or_space hall
  have hskip := skipSpaces_movedBy hspace
  rw [readNumber, numberLoop_eq_readLoop, ← decimalFrom_zero]
  refine ⟨fun hfits => ?fits, fun hover => ?overflow⟩
  case fits =>
    have hstop : digitStep (decimalFrom 0 text) (s.movedBy text.length).skipSpaces.char = none := by
      rw [hskip, digitStep, ← charAfter_eq_char_movedBy, digitValue_of_not_isDigit hdigit]; rfl
    rw [readLoop_of_takes (takes_digits 0 htext hfits) (remaining_skipSpaces_le s) hs hstop, hskip]
  case overflow =>
    exact readLoop_of_faultsIn (faultsIn_digits 0 (Nat.zero_le _) htext hover)
      (remaining_skipSpaces_le s) hs

/-! ## Accidentals (R121) -/

/-- The sharps end where the flats begin, or, without flats, at the character after them. -/
theorem sharps_stop {s : State} {flats : List Byte} (hs : s.shows flats)
    (hflats : ∀ c ∈ flats, c ≠ 0x20 → c = 0x2D)
    (hskip : (s.movedBy flats.length).skipSpaces = s.movedBy flats.length)
    (hend : solidCount flats = 0 →
      (s.movedBy flats.length).char ≠ 0x2B ∧ (s.movedBy flats.length).char ≠ 0x23) :
    s.skipSpaces.char ∉ ([0x2B, 0x23] : List Byte) := by
  by_cases hblank : solidCount flats = 0
  · rw [skipSpaces_of_blank hs hblank, hskip]
    simpa using hend hblank
  · rw [char_skipSpaces_of_solid hs hblank,
      hflats _ (firstNonSpace_mem hblank) (firstNonSpace_ne_space flats)]
    decide

/-- Settles O36: the sharps are read to the first flat, and the flats to the end of the text. -/
theorem accidentalsShiftThePitch : Obligations.AccidentalsShiftThePitch := by
  intro s p sharps flats hsharps hflats hs
  rintro ⟨hspace, hminus, hend⟩
  have htext1 : ∀ c ∈ sharps, c ≠ 0x20 → c = 0x2B ∨ c = 0x23 := by
    simpa using solid_of_all_or_space (q := fun c => c == 0x2B || c == 0x23) hsharps
  have htext2 : ∀ c ∈ flats, c ≠ 0x20 → c = 0x2D := by
    simpa using solid_of_all_or_space (q := fun c => c == 0x2D) hflats
  have hskip := skipSpaces_movedBy hspace
  obtain ⟨hs1, hs2⟩ := shows_append hs
  rw [movedBy_append] at hskip ⊢
  rw [charAfter_eq_char_movedBy, movedBy_append] at hminus hend
  rw [readSharps_of_shows p hs1 htext1 (sharps_stop hs2 htext2 hskip hend),
    readFlats_of_shows _ hs2 htext2 (by rwa [hskip]), hskip, shift_shift]
  rfl

/-! ## Dots (R123) -/

/-- Settles O37: the dots are taken one after another to the end of the text, or to the one that
overflows. -/
theorem dotsAddHalvedBonuses : Obligations.DotsAddHalvedBonuses := by
  intro s d dots hd hall hs hspace hdot
  have htext : ∀ c ∈ dots, c ≠ 0x20 → c = 0x2E := by
    simpa using solid_of_all_or_space (q := fun c => c == 0x2E) hall
  have hskip := skipSpaces_movedBy hspace
  have hstart : (d, d / 2) = (dottedDuration d 0, d / 2 ^ (0 + 1)) := rfl
  rw [readDots, dotsLoop_eq_readLoop, hstart, ← Nat.zero_add (solidCount dots)]
  refine ⟨fun hfits => ?fits, fun hover => ?overflow⟩
  case fits =>
    have hstop := dotStep_of_ne (c := (s.movedBy dots.length).skipSpaces.char) (by rwa [hskip])
    rw [readLoop_of_takes (takes_dots d 0 htext hfits) (remaining_skipSpaces_le s) hs (hstop _), hskip]
    rfl
  case overflow =>
    rw [readLoop_of_faultsIn (faultsIn_dots d 0 hd htext hover) (remaining_skipSpaces_le s) hs]
    rfl

end Sys2Proof.Machine
end

section
/-! Proofs about the playback scheduler (42_playback_scheduler.md): the host commands that play a tone, those
that pull from a score, and those that only write or answer. -/

namespace Sys2Proof.Machine

open Sys2Proof

/-! ## Commands that play one tone (R127, R128) -/

/-- A tone that a host command plays ends the session and starts; where its plan faults, the fault is all that
happens. -/
theorem settle_playPlanned {s : State} (hn : s.pull = none) (planned : Except FaultCode ToneParams) :
    (∀ p, planned = .ok p → s.settle (playPlanned s planned) = .next
      { s with
        eng := ({ s.eng with seqActive := false, staccRest := 0 } : Engine).afterTone p }) ∧
    (∀ code, planned = .error code →
      s.settle (playPlanned s planned) = .next (s.afterFault code)) := by
  constructor
  · rintro p rfl
    rfl
  · rintro code rfl
    rw [playPlanned, settle_error, State.raise, State.origin_of_none s hn]
    rfl

/-- Settles O9: the command settles the plan of its operands. -/
theorem playFreqPlaysThePlan : Obligations.PlayFreqPlaysThePlan := by
  intro s freq dur vol hs hn
  have hexec : exec (.playFreq freq dur vol) s = s.settle (playPlanned s (plan s.cfg freq dur vol)) :=
    unlessHalted_of_live hs _
  rw [hexec]
  exact settle_playPlanned hn _

/-- The note operand 255 as the number it stands for (R86, R128). -/
theorem hostPitch_eq (note : Byte) :
    hostPitch note = if note.toNat = 255 then .silent else .note note.toNat :=
  if_congr BitVec.toNat_inj.symm rfl rfl

/-- Settles O10: the command settles the plan of its note. -/
theorem playNotePlaysThePlan : Obligations.PlayNotePlaysThePlan := by
  intro s note dur vol hs hn
  have hexec : exec (.playNote note dur vol) s =
      s.settle (playPlanned s (planNote s.cfg (hostPitch note) dur vol)) :=
    unlessHalted_of_live hs _
  rw [hexec, hostPitch_eq]
  exact settle_playPlanned hn _

/-! ## `PLAY_SEQ` (R129) -/

/-- `PLAY_SEQ` is the cursor's set-up and one pull. -/
theorem exec_playSeq {s : State} (hs : s.halted = false) (base len : Half) :
    exec (.playSeq base len) s = runPull s.eng (s.mapEng (·.startScore base len)) :=
  unlessHalted_of_live hs _

/-- The set-up of the cursor clears the pending rest, so the pull begins with the score (R101, R129). -/
theorem startScore_no_rest (e : Engine) (base len : Half) :
    ¬((e.startScore base len).staccato = true ∧ (e.startScore base len).staccRest ≠ 0) :=
  fun h => h.2 rfl

/-- Settles O11: the pull that follows the set-up meets the end of the sequence. -/
theorem playSeqOfEndedScoreEndsAtOnce : Obligations.PlaySeqOfEndedScoreEndsAtOnce := by
  intro s base len hs u hend
  rw [exec_playSeq hs]
  exact pullEndsAtATerminator s.eng u hs (startScore_no_rest s.eng base len) hend

/-- A letter at the token loop ends the pull, by its item or by a fault (R105 to R112, R138). -/
theorem exec_letter_ends {s t : State} {i : Instr} {p : Pitch} (hs : s.halted = false)
    (hp : s.currentPull.place = .tokens) (hi : letterPitch i s.tmpOct = some p)
    (h : exec i s = .next t) : t.pull = none := by
  rw [exec_of_letterPitch hs hp hi] at h
  rcases settle_next h with hok | ⟨code, _, rfl⟩
  · obtain ⟨u, d, params, _, _, _, rfl⟩ := tailFromSharps_ok hok
    rfl
  · rfl

/-- A pull whose first token is over with the pull is that token (R100). -/
theorem runPull_of_first_token {origin : Engine} {s t : State}
    (hrest : ¬(s.eng.staccato = true ∧ s.eng.staccRest ≠ 0))
    (h : exec (s.openPull origin).nextToken (s.openPull origin) = .next t) (ht : t.pull = none) :
    runPull origin s = .next t := by
  rw [runPull_of_no_rest origin hrest, pullLoop_of_open (s.openPull_pull origin) h]
  exact pullLoop_of_closed ht _

/-- Settles O12: the letter is the first token of the pull, and ends it. -/
theorem playSeqPlaysTheFirstItem : Obligations.PlaySeqPlaysTheFirstItem := by
  intro s base len hs u hletter
  obtain ⟨p, hp⟩ := Option.isSome_iff_exists.1 hletter
  obtain ⟨t, ht⟩ := exec_nextToken_answers u
  have hclosed : t.pull = none := exec_letter_ends (s := u) hs rfl hp ht
  refine ⟨t, ?_, ht, hclosed⟩
  rw [exec_playSeq hs]
  exact runPull_of_first_token (startScore_no_rest s.eng base len) ht hclosed

/-! ## What a pull does to the session (R100 to R125, R134) -/

/-- From `e` to `e'` the score, the mode, the response and the fault bits stay, and the cursor stays within the
score. -/
structure Engine.SameSession (e e' : Engine) : Prop where
  base : e'.seqBase = e.seqBase
  len : e'.seqLen = e.seqLen
  mode : e'.mode = e.mode
  resp : e'.resp = e.resp
  fault : e'.fault = e.fault
  cursor : e.seqOff.toNat ≤ e.seqLen.toNat → e'.seqOff.toNat ≤ e'.seqLen.toNat

theorem Engine.SameSession.refl (e : Engine) : e.SameSession e := ⟨rfl, rfl, rfl, rfl, rfl, id⟩

theorem Engine.SameSession.trans {e e' e'' : Engine} (h : e.SameSession e') (k : e'.SameSession e'') :
    e.SameSession e'' where
  base := k.base.trans h.base
  len := k.len.trans h.len
  mode := k.mode.trans h.mode
  resp := k.resp.trans h.resp
  fault := k.fault.trans h.fault
  cursor := k.cursor ∘ h.cursor

theorem Engine.Reads.sameSession {e e' : Engine} (h : e.Reads e') : e.SameSession e' := by
  cases h with
  | cursor off within => exact ⟨rfl, rfl, rfl, rfl, rfl, within⟩
  | _ => exact ⟨rfl, rfl, rfl, rfl, rfl, id⟩

theorem Engine.ReadsOn.sameSession {e e' : Engine} (h : e.ReadsOn e') : e.SameSession e' :=
  h.keeps (fun _ _ hread hx => hx.trans hread.sameSession) (.refl e)

theorem Engine.Ends.sameSession {cfg : Config} {e e' : Engine} (h : e.Ends cfg e') : e.SameSession e' := by
  cases h with
  | item d _ => constructor <;> simp
  | score => exact ⟨rfl, rfl, rfl, rfl, rfl, id⟩

theorem Engine.Pulls.sameSession {cfg : Config} {e e' : Engine} (h : e.Pulls cfg e') : e.SameSession e' := by
  cases h with
  | rest => exact ⟨rfl, rfl, rfl, rfl, rfl, id⟩
  | score _ reads ends => exact reads.sameSession.trans ends.sameSession

/-- A pull that reads on keeps the sequence active or not. -/
theorem Engine.ReadsOn.seqActive_eq {e e' : Engine} (h : e.ReadsOn e') : e'.seqActive = e.seqActive := by
  refine h.keeps (P := (·.seqActive = e.seqActive)) (fun _ _ hread hx => ?_) rfl
  cases hread <;> exact hx

/-- The sequence sounds a note or a rest, or the engine is idle and silent (R24). -/
def Engine.PlaysOrIdle (e : Engine) : Prop :=
  (e.status = .playingSequence ∧ e.finished = false ∧ e.tickIE = true) ∨
    (e.status = .idle ∧ e.tickIE = false)

theorem playsOrIdle_of_sounding {e : Engine} (hactive : e.seqActive = true) (hfinished : e.finished = false)
    (htick : e.tickIE = true) : e.PlaysOrIdle :=
  .inl ⟨if_pos hactive, hfinished, htick⟩

/-- The pull of an active sequence leaves it playing, or ends it. -/
theorem Engine.Pulls.playsOrIdle {cfg : Config} {e e' : Engine} (h : e.Pulls cfg e')
    (hactive : e.seqActive = true) : e'.PlaysOrIdle := by
  cases h with
  | rest => exact playsOrIdle_of_sounding hactive rfl rfl
  | score _ reads ends =>
    have hmid := reads.seqActive_eq.trans hactive
    cases ends with
    | item d _ => exact playsOrIdle_of_sounding ((Engine.withSplit_seqActive _ d).trans hmid) rfl rfl
    | score => exact .inr ⟨rfl, rfl⟩

/-- Settles O13: the pull after the set-up faults, or keeps the score and leaves it playing or the engine
idle. -/
theorem playSeqPlaysOrEndsOrFaults : Obligations.PlaySeqPlaysOrEndsOrFaults := by
  intro s base len hs hn
  obtain ⟨t, ht⟩ := exec_answers (.playSeq base len) s
  refine ⟨t, ht, ?_⟩
  rw [exec_playSeq hs] at ht
  obtain ⟨e', rfl, ⟨code, rfl⟩ | hpulls⟩ := runPull_writes ht
  · exact .inl ⟨code, rfl⟩
  · obtain ⟨hbase, (hlen : e'.seqLen = len), hmode, hresp, hfault, hcursor⟩ := hpulls.sameSession
    have hlive : (s.mapEng fun _ => e').halted = false := halted_mapEng hs hfault
    have hwithin : e'.seqOff.toNat ≤ len.toNat := hlen ▸ hcursor (Nat.zero_le _)
    exact .inr ⟨hlive, rfl, rfl, rfl, rfl, hbase, hlen, hwithin, hmode, hresp, hpulls.playsOrIdle rfl⟩

/-! ## Commands that pull where a finished note waits (R130, R131) -/

theorem pullDue_iff (e : Engine) : e.pullDue = true ↔ e.finished = true ∧ e.seqActive = true :=
  Bool.and_eq_true_iff

theorem pullIfDue_of_due {s : State} (origin : Engine)
    (h : s.eng.finished = true ∧ s.eng.seqActive = true) : pullIfDue origin s = runPull origin s :=
  if_pos ((pullDue_iff s.eng).2 h)

theorem pullIfDue_of_not_due {s : State} (origin : Engine)
    (h : ¬(s.eng.finished = true ∧ s.eng.seqActive = true)) : pullIfDue origin s = .next s :=
  if_neg (mt (pullDue_iff s.eng).1 h)

/-- Settles O14: the mode is written first, and the pull, where it is due, follows. -/
theorem playModeSwitchesAndCatchesUp : Obligations.PlayModeSwitchesAndCatchesUp := by
  intro s hs
  have hauto : exec (.playMode .automatic) s =
      pullIfDue s.eng (s.mapEng (·.setMode .automatic)) := unlessHalted_of_live hs _
  rw [hauto]
  refine ⟨unlessHalted_of_live hs _, fun hnot => ?notDue, fun hdue => ?due⟩
  case notDue => exact pullIfDue_of_not_due (s := s.mapEng (·.setMode .automatic)) s.eng hnot
  case due =>
    obtain ⟨t, ht⟩ := runPull_answers s.eng (s := s.mapEng (·.setMode .automatic)) (halted_mapEng hs rfl)
    exact ⟨t, (pullIfDue_of_due (s := s.mapEng (·.setMode .automatic)) s.eng hdue).trans ht, ht⟩

/-- `PLAY_CHECK` answers after its pull, if one is due. -/
theorem exec_playCheck {s t : State} (hs : s.halted = false) (h : pullIfDue s.eng s = .next t) :
    exec .playCheck s = .next t.answerActive := by
  change execPlayCheck s = _
  rw [execPlayCheck, unlessHalted_of_live hs, h]

/-- Settles O15: the answer follows the pull, unless that halted the engine. -/
theorem playCheckAdvancesAndAnswers : Obligations.PlayCheckAdvancesAndAnswers := by
  intro s hs
  refine ⟨fun hnot => ?notDue, fun hdue => ?due⟩
  case notDue =>
    rw [exec_playCheck hs (pullIfDue_of_not_due s.eng hnot), answerActive_of_live hs]
    rfl
  case due =>
    obtain ⟨t, ht⟩ := runPull_answers s.eng hs
    exact ⟨t, ht, exec_playCheck hs ((pullIfDue_of_due s.eng hdue).trans ht)⟩

/-! ## Commands that neither play nor pull (R132, R133) -/

/-- `isPlaying` as its two conditions (R44). -/
theorem playing_eq_decide (e : Engine) :
    e.playing = decide (e.finished = false ∨ e.seqActive = true) := by
  simp [Engine.playing]

/-- Settles O16: the answer is `isPlaying`. -/
theorem isPlayingAnswers : Obligations.IsPlayingAnswers := by
  intro s hs
  have hexec : exec .isPlaying s = .next (s.mapEng fun e => e.respond e.playing) :=
    unlessHalted_of_live hs _
  rw [hexec, ← playing_eq_decide]
  rfl

/-- `STOP` on a live engine writes its registers and nothing else. -/
theorem exec_stop {s : State} (hs : s.halted = false) :
    exec .stop s = .next (s.mapEng (·.stop s.cfg)) :=
  unlessHalted_of_live hs _

/-- Settles O17: `STOP` is never a fault, and stopping twice writes the same values twice. -/
theorem stopSilencesAndEndsTheSession : Obligations.StopSilencesAndEndsTheSession := by
  intro s hs
  have hlive : (s.mapEng (·.stop s.cfg)).halted = false := halted_mapEng hs rfl
  exact ⟨_, exec_stop hs, rfl, rfl, exec_stop hlive⟩

end Sys2Proof.Machine
end

section
/-! Proofs about ticks and faults (60_exceptions.md): what a tick does, how long a tone sounds, and what a
halted engine leaves unchanged. -/

namespace Sys2Proof.Machine

open Sys2Proof

/-! ## A tick is lost, counts down or expires the tone (R41, R141 to R143) -/

theorem tickEnabled_iff (s : State) : s.tickEnabled = true ↔ s.eng.tickIE = true ∧ s.halted = false := by
  simp [State.tickEnabled]

theorem pullsAtExpiry_iff (e : Engine) :
    e.pullsAtExpiry = true ↔ e.seqActive = true ∧ e.mode = .automatic := by
  simp [Engine.pullsAtExpiry]

/-- A countdown above 0 does not wrap. -/
theorem countDown_eq {e : Engine} (h : e.timeout ≠ 0) :
    e.countDown = { e with timeout := BitVec.ofNat 16 (e.timeout.toNat - 1) } := by
  have hsub : e.timeout - 1 = BitVec.ofNat 16 (e.timeout.toNat - 1) := by bv_omega
  rw [Engine.countDown, hsub]

theorem tick_of_disabled {s : State} (h : s.eng.tickIE = false ∨ s.halted = true) : tick s = .next s := by
  refine if_neg fun hen => ?_
  obtain ⟨hie, hlive⟩ := (tickEnabled_iff s).1 hen
  rcases h with hoff | hhalted
  · cases hie.symm.trans hoff
  · cases hlive.symm.trans hhalted

theorem tick_counts_down {s : State} (hie : s.eng.tickIE = true) (hs : s.halted = false)
    (h : s.eng.timeout ≠ 0) :
    tick s = .next (s.mapEng fun e => { e with timeout := BitVec.ofNat 16 (e.timeout.toNat - 1) }) := by
  rw [tick, if_pos ((tickEnabled_iff s).2 ⟨hie, hs⟩), if_neg h, State.mapEng, countDown_eq h]
  rfl

theorem tick_of_timeout_zero {s : State} (hie : s.eng.tickIE = true) (hs : s.halted = false)
    (h : s.eng.timeout = 0) : tick s = expiry s := by
  rw [tick, if_pos ((tickEnabled_iff s).2 ⟨hie, hs⟩), if_pos h]

theorem expiry_of_no_pull {s : State} (h : ¬(s.eng.seqActive = true ∧ s.eng.mode = .automatic)) :
    expiry s = .next (s.mapEng (·.expire s.cfg)) :=
  if_neg (mt (pullsAtExpiry_iff s.eng).1 h)

theorem expiry_of_pull {s : State} (h : s.eng.seqActive = true ∧ s.eng.mode = .automatic) :
    expiry s = runPull s.eng (s.mapEng (·.expire s.cfg)) :=
  if_pos ((pullsAtExpiry_iff s.eng).2 h)

/-- Settles O46: one rule per branch of the tick, and the pull always answers. -/
theorem tickCountsDownOrExpires : Obligations.TickCountsDownOrExpires := by
  intro s
  refine ⟨tick_of_disabled, tick_counts_down, fun hie hs h0 => ?expires⟩
  rw [tick_of_timeout_zero hie hs h0]
  refine ⟨expiry_of_no_pull, fun hpulls => ?pulls⟩
  obtain ⟨t, ht⟩ := runPull_answers s.eng (halted_mapEng (f := (·.expire s.cfg)) hs rfl)
  exact ⟨t, (expiry_of_pull hpulls).trans ht, ht⟩

/-! ## How long a tone sounds (R142, R166) -/

/-- A tone sounds, and nothing follows it: no pull, no input, no sequence that goes on by itself. -/
structure State.SoundsAlone (s : State) : Prop where
  noPull : s.pull = none
  noInput : s.inputs = []
  ticking : s.eng.tickIE = true
  live : s.halted = false
  noSequence : ¬(s.eng.seqActive = true ∧ s.eng.mode = .automatic)

/-- The state in which `k` ticks of the countdown are over. -/
def State.afterTicks (s : State) (k : Nat) : State :=
  { s with eng := { s.eng with timeout := BitVec.ofNat 16 (s.eng.timeout.toNat - k) } }

theorem afterTicks_zero (s : State) : s.afterTicks 0 = s := by
  simp [State.afterTicks]

theorem afterTicks_timeout_toNat (s : State) (k : Nat) :
    (s.afterTicks k).eng.timeout.toNat = s.eng.timeout.toNat - k := by
  have hlt := s.eng.timeout.isLt
  rw [State.afterTicks, BitVec.toNat_ofNat, Nat.mod_eq_of_lt (by omega)]

/-- The countdown writes nothing that the tone's sounding alone depends on. -/
theorem State.SoundsAlone.afterTicks {s : State} (h : s.SoundsAlone) (k : Nat) :
    (s.afterTicks k).SoundsAlone :=
  ⟨h.noPull, h.noInput, h.ticking, h.live, h.noSequence⟩

/-- Nothing else can step, so the step is a tick (R144). -/
theorem State.SoundsAlone.step_eq_tick {s : State} (h : s.SoundsAlone) : step s = tick s :=
  (step_of_no_pull h.noPull).trans (agentStep_of_nil h.noInput)

/-- One more tick of a countdown that is not over. -/
theorem step_afterTicks {s : State} (h : s.SoundsAlone) {k : Nat} (hk : k < s.eng.timeout.toNat) :
    step (s.afterTicks k) = .next (s.afterTicks (k + 1)) := by
  have hk' := h.afterTicks k
  have htoNat := afterTicks_timeout_toNat s k
  have hpos : (s.afterTicks k).eng.timeout ≠ 0 := by
    intro h0
    have hover : s.eng.timeout.toNat - k = 0 := htoNat.symm.trans (congrArg BitVec.toNat h0)
    omega
  rw [hk'.step_eq_tick, tick_counts_down hk'.ticking hk'.live hpos, State.mapEng, htoNat, Nat.sub_sub]
  rfl

/-- A run past the first `k` ticks of the countdown goes on from where they left off. -/
theorem run_past_countDown {s : State} (h : s.SoundsAlone) (k m : Nat) (hk : k ≤ s.eng.timeout.toNat) :
    Host.Core.run Sys2Proof.core (k + m) s = Host.Core.run Sys2Proof.core m (s.afterTicks k) := by
  induction k generalizing m with
  | zero => rw [Nat.zero_add, afterTicks_zero]
  | succ k ih =>
    rw [Nat.succ_add_eq_add_succ, ih (m + 1) (Nat.le_of_succ_le hk)]
    exact run_succ_of_step (M := Sys2Proof.core) (step_afterTicks h hk) m

/-- A countdown that is over expires on the next step. -/
theorem step_expires {s : State} (h : s.SoundsAlone) (h0 : s.eng.timeout = 0) :
    step s = .next (s.mapEng (·.expire s.cfg)) := by
  rw [h.step_eq_tick, tick_of_timeout_zero h.ticking h.live h0, expiry_of_no_pull h.noSequence]

/-- Settles O47: after `k` ticks of the countdown the run stands at `afterTicks k`, and where that is at 0
one more step expires the tone. -/
theorem toneExpiresAfterItsTimeout : Obligations.ToneExpiresAfterItsTimeout := by
  intro s hn hin hie hs hseq
  have h : s.SoundsAlone := ⟨hn, hin, hie, hs, hseq⟩
  refine ⟨fun k hk => run_past_countDown h k 0 hk, ?expires⟩
  have h0 : (s.afterTicks s.eng.timeout.toNat).eng.timeout = 0 := by
    rw [State.afterTicks, Nat.sub_self]
    rfl
  rw [run_past_countDown h _ 1 le_rfl]
  exact run_succ_of_step (M := Sys2Proof.core) (step_expires (h.afterTicks _) h0) 0

/-! ## A halted engine (R138) -/

/-- Whatever comes from outside, reset apart, leaves the registers and the trace of a halted engine. -/
theorem takeInput_of_halted {input : Input} {s t : State} (hs : s.halted = true) (hi : input ≠ .reset)
    (h : takeInput input s = .next t) : t.eng = s.eng ∧ t.pull = s.pull := by
  cases input with
  | command w => cases (exec_of_halted hs _).symm.trans h; exact ⟨rfl, rfl⟩
  | tick => cases (tick_of_disabled (.inr hs)).symm.trans h; exact ⟨rfl, rfl⟩
  | load addr byte => obtain ⟨_, rfl⟩ := placeByte_next h; exact ⟨rfl, rfl⟩
  | reset => exact absurd rfl hi

theorem agentStep_of_halted {s t : State} (hs : s.halted = true) (hr : s.inputs.head? ≠ some .reset)
    (h : agentStep s = .next t) : t.eng = s.eng ∧ t.pull = s.pull := by
  cases hin : s.inputs with
  | nil =>
    rw [agentStep_of_nil hin, tick_of_disabled (.inr hs)] at h
    cases h
    exact ⟨rfl, rfl⟩
  | cons input later =>
    rw [agentStep_of_cons hin] at h
    exact takeInput_of_halted (s := { s with inputs := later }) hs
      (fun hi => hr (by rw [hin, hi, List.head?_cons])) h

/-- Settles O50: every instruction and the tick check first whether the engine is halted, and a placed byte
writes no register. -/
theorem haltedEngineChangesNothing : Obligations.HaltedEngineChangesNothing := by
  intro s hs
  refine ⟨exec_of_halted hs, tick_of_disabled (.inr hs), fun hn hr t h => ?_⟩
  rw [step_of_no_pull hn] at h
  obtain ⟨heng, hpull⟩ := agentStep_of_halted hs hr h
  exact ⟨heng, hpull.trans hn⟩

end Sys2Proof.Machine
end
